-- ==== Sys2Proof/Word.lean ====
section
/-! DEFINITION. The machine words of GGCS: a byte, the 32-bit register and bus word, the 48-bit script word and the
4-bit nibble (spec/00_scope.md R6 `XW`, R7; spec/30_encoding.md R90, R94). -/

namespace Sys2Proof

/-- One byte of the image, of a code cell or of a pattern (R60, R23, R28); also a register number and a `CMD8`
opcode (R34, R91). -/
abbrev Byte := BitVec 8

/-- A 32-bit register and the bus data width `XW` (R6). -/
abbrev Word := BitVec 32

/-- A `BUS48` script word (R94). -/
abbrev BusWord := BitVec 48

/-- A nibble of the code string (R97). -/
abbrev Nibble := BitVec 4

end Sys2Proof
end

