-- ==== Sys2Proof/Config.lean ====
section
/-! DEFINITION. What a launch of the block fixes (spec/00_scope.md R6, spec/10_state.md R42) as plain data, and the
two values the spec leaves to a draw, as constants without a body. -/

namespace Sys2Proof

/-- The two kinds of region whose banks the reader reads: `kind` of `BANKOFF(kind, address)` (R68). -/
inductive Region where
  | prg
  | chr
  deriving DecidableEq, Repr

/-- One argument pair of `BANKOFF` at which the launch's strategy differs from the default, and its value there
(R68). -/
structure BankOffEntry where
  region  : Region
  address : BitVec 16
  offset  : Nat
  deriving DecidableEq, Repr

/-- `SCAN_STEP` (R6, R164): where the next search starts after a hit. -/
inductive ScanStep where
  /-- the default: just past the last byte of the hit, `h + L` -/
  | matchLength
  /-- the alternative: `h + 1` -/
  | one
  deriving DecidableEq, Repr

/-- The OPEN parameters of R6 that the block reads. `bankOff` holds `BANKOFF` as its differences from the default
strategy: every function from (kind, address) to an offset inside the bank is such a list. -/
structure Params where
  bankOff     : List BankOffEntry
  scanStep    : ScanStep
  imgIoFaults : Bool
  deriving DecidableEq, Repr

/-- The default column of R6: the default `BANKOFF` everywhere, `SCAN_STEP` = hit + length, no I/O faults. -/
def Params.default : Params := ⟨[], .matchLength, false⟩

/-- FREE VALUE (log 7). `ioFault n off`: under `IMG_IO_FAULTS` the read of image byte `off` in the command with draw
number `n` fails: the `draw f in {false, true}` of R61. -/
opaque Config.ioFault : Nat → Nat → Bool

/-- FREE VALUE (log 8). `servesSnapshot n off`: where the hidden snapshot and the image differ, the command with draw
number `n` reads the old byte: "a read may return the old or the new byte" (R39). -/
opaque Config.servesSnapshot : Nat → Nat → Bool

end Sys2Proof
end

