-- ==== Sys2Proof/Syntax.lean ====
section
/-! DEFINITION. The instructions of GGCS: one constructor per row of spec/opcode_table.json, the 13 `CMD8` commands
(spec/30_encoding.md R92) and the two `BUS48` bus transactions (R94; spec/43_system.md R180, R181). -/

namespace Sys2Proof

/-- A command of the block or a bus transaction. A command has no operand field: every operand is in a register
(R91). -/
inductive Instr where
  /-- no operation (R182) -/
  | nop
  /-- software reset (R183) -/
  | rst
  /-- encode a patch without compare into a 6-character code (R121) -/
  | enc6
  /-- encode a patch with compare into an 8-character code (R122) -/
  | enc8
  /-- decode the code cells into the patch registers (R123) -/
  | dec
  /-- parse the cartridge header (R141) -/
  | hdr
  /-- read one byte of a PRG bank (R142) -/
  | rdp
  /-- read one byte of a CHR bank (R143) -/
  | rdc
  /-- read one byte of the flattened PRG region (R144) -/
  | rdr
  /-- read a PRG bank at the bank-relative offset of the address in `A` (R145) -/
  | rdpa
  /-- read a CHR bank at the bank-relative offset of the address in `A` (R146) -/
  | rdca
  /-- start a scan over the pattern table (R162) -/
  | scans
  /-- produce the next element of the scan's sequence (R163) -/
  | scann
  /-- bus write of `data` to the register numbered `reg` (R180) -/
  | wr (reg : Byte) (data : Word)
  /-- bus read of the register numbered `reg` (R181) -/
  | rd (reg : Byte)
  deriving DecidableEq, Repr

end Sys2Proof
end

