-- ==== Sys2Proof/WellFormed.lean ====
section
/-! DEFINITION. Which `BUS48` words are script words (spec/30_encoding.md R94). A term of `Instr` cannot be
ill-formed: its operands carry the widths of their fields, and every register number and every datum is admitted
(spec/70_reset_and_hazards.md R261). What can be ill-formed is a word, in the two ways R94 names. -/

namespace Sys2Proof

/-- Bit 47, `w`: 1 is a write, 0 a read (R94). -/
def BusWord.isWrite (w : BusWord) : Bool := w.getLsbD 47

/-- Bits 46:40, which must be 0 (R94). -/
def BusWord.zeroField (w : BusWord) : BitVec 7 := w.extractLsb' 40 7

/-- Bits 39:32, the register number (R94). -/
def BusWord.reg (w : BusWord) : Byte := w.extractLsb' 32 8

/-- Bits 31:0, the value written (R94). -/
def BusWord.data (w : BusWord) : Word := w.extractLsb' 0 32

/-- Check 1: the field `zero` is 0 (R94). -/
def BusWord.zeroFieldClear (w : BusWord) : Bool := w.zeroField == 0#7

/-- Check 2: a read carries no data (R94: the data "must be 0 for a read"). -/
def BusWord.readDataClear (w : BusWord) : Bool := w.isWrite || w.data == 0#32

/-- A word is a script word when both checks hold (R94). -/
def BusWord.wellFormed (w : BusWord) : Bool := w.zeroFieldClear && w.readDataClear

/-- A value fits the number of bits it is said to have. -/
def fitsBits (nbits w : Nat) : Bool := w < 2 ^ nbits

end Sys2Proof
end

