-- ==== Sys2Proof/Decode.lean ====
section
/-! DEFINITION. Decoding and encoding of the two instruction formats, `CMD8` (spec/30_encoding.md R91 to R93) and
`BUS48` (R94). Decoding is total on all words and rejects by name. -/

namespace Sys2Proof

/-- Why a word is no instruction. -/
inductive DecodeError where
  /-- one of the 243 reserved `CMD8` values (R93) -/
  | reservedOpcode (op : Byte)
  /-- a `BUS48` word with a nonzero field `zero` (R94) -/
  | zeroField (w : BusWord)
  /-- a `BUS48` read with nonzero data (R94) -/
  | readData (w : BusWord)
  /-- the value does not fit the number of bits it is said to have -/
  | tooWide (nbits w : Nat)
  /-- a number of bits that is neither `CMD8` nor `BUS48` (R90) -/
  | noFormat (nbits : Nat)
  deriving DecidableEq, Repr

/-- The opcode map R92; every other byte is reserved (R93). -/
def decodeCmd8 (op : Byte) : Except DecodeError Instr :=
  match op.toNat with
  | 0x00 => .ok .nop
  | 0x01 => .ok .rst
  | 0x10 => .ok .enc6
  | 0x11 => .ok .enc8
  | 0x12 => .ok .dec
  | 0x20 => .ok .hdr
  | 0x21 => .ok .rdp
  | 0x22 => .ok .rdc
  | 0x23 => .ok .rdr
  | 0x24 => .ok .rdpa
  | 0x25 => .ok .rdca
  | 0x30 => .ok .scans
  | 0x31 => .ok .scann
  | _    => .error (.reservedOpcode op)

/-- The bus script word R94. -/
def decodeBus48 (w : BusWord) : Except DecodeError Instr :=
  if !w.zeroFieldClear then .error (.zeroField w)
  else if !w.readDataClear then .error (.readData w)
  else if w.isWrite then .ok (.wr w.reg w.data)
  else .ok (.rd w.reg)

/-- Decode a word of `nbits` bits in the numbering of the opcode table: 8 bits are a `CMD8` command, 48 bits a
`BUS48` transaction (R90). -/
def decodeBits (nbits w : Nat) : Except DecodeError Instr :=
  if !fitsBits nbits w then .error (.tooWide nbits w)
  else if nbits = 8 then decodeCmd8 (BitVec.ofNat 8 w)
  else if nbits = 48 then decodeBus48 (BitVec.ofNat 48 w)
  else .error (.noFormat nbits)

/-- The instruction read from a word of the opcode table; `none` where the decoder refuses. -/
def decodeTableWord (nbits w : Nat) : Option Instr := (decodeBits nbits w).toOption

/-- The opcode of a command (R92); the two bus transactions have none. -/
def opcode? : Instr → Option Byte
  | .nop    => some 0x00#8
  | .rst    => some 0x01#8
  | .enc6   => some 0x10#8
  | .enc8   => some 0x11#8
  | .dec    => some 0x12#8
  | .hdr    => some 0x20#8
  | .rdp    => some 0x21#8
  | .rdc    => some 0x22#8
  | .rdr    => some 0x23#8
  | .rdpa   => some 0x24#8
  | .rdca   => some 0x25#8
  | .scans  => some 0x30#8
  | .scann  => some 0x31#8
  | .wr _ _ => none
  | .rd _   => none

/-- The `BUS48` word of a write: `w` = 1, `zero` = 0, `reg`, `data` (R94). -/
def writeWord (reg : Byte) (data : Word) : BusWord := 0x80#8 ++ reg ++ data

/-- The `BUS48` word of a read: `w` = 0, `zero` = 0, `reg`, data 0 (R94). -/
def readWord (reg : Byte) : BusWord := 0x00#8 ++ reg ++ 0#32

/-- The word of an instruction in its own row of the opcode table: its number of bits and its value. -/
def encode (i : Instr) : Nat × Nat :=
  match i with
  | .wr reg data => (48, (writeWord reg data).toNat)
  | .rd reg      => (48, (readWord reg).toNat)
  | .nop | .rst | .enc6 | .enc8 | .dec | .hdr | .rdp | .rdc | .rdr | .rdpa | .rdca | .scans | .scann =>
    (8, ((opcode? i).getD 0).toNat)

/-- The script word by which the host issues an instruction: a bare mnemonic is "exactly WR CMD, <opcode>"
(R103), a transaction is its own word. -/
def scriptWord (i : Instr) : BusWord :=
  match i with
  | .wr reg data => writeWord reg data
  | .rd reg      => readWord reg
  | .nop | .rst | .enc6 | .enc8 | .dec | .hdr | .rdp | .rdc | .rdr | .rdpa | .rdca | .scans | .scann =>
    writeWord 0x00#8 (((opcode? i).getD 0).setWidth 32)

/-- The script word that presents a word of the opcode table to the block: a `CMD8` value is written to `CMD`
(R91), a `BUS48` word is presented as it is. -/
def busWordOf (nbits w : Nat) : BusWord :=
  if nbits = 8 then writeWord 0x00#8 (BitVec.ofNat 32 (w % 256)) else BitVec.ofNat 48 w

end Sys2Proof
end

