-- ==== Sys2Proof/Machine/State.lean ====
section
/-! DEFINITION. The state of GGCS as plain data: every register of spec/10_state.md R20 and R34, the hidden snapshot
R39, the launch parameters R42, and the model's own fields for the host's transactions; the errors of
spec/60_exceptions.md R220 to R224; the reset state R43. -/

namespace Sys2Proof.Machine

open Sys2Proof

/-- A cartridge image (R60): its length `IMGLEN` and its bytes. `cells` lists the nonzero bytes by rising offset; an
offset below `len` that it does not list holds 0x00 (log 4). -/
structure Image where
  len   : Word
  cells : List Host.Cell
  deriving DecidableEq, Repr

/-- One slot of the pattern table (R28): the bytes `PB[j]`, the length `PLEN[j]`, the signed offset `PO[j]`. -/
structure Slot where
  pb   : Vector Byte 8
  plen : BitVec 4
  po   : Word
  deriving DecidableEq, Repr

/-- A slot at reset (R43). -/
def Slot.zero : Slot := ⟨Vector.replicate 8 0, 0, 0⟩

/-- The scan state `SS` (R29): 0 IDLE, 1 ACTIVE, 2 DONE; "3 never occurs" (R26). -/
inductive ScanState where
  | idle
  | active
  | done
  deriving DecidableEq, Repr

/-- The registers of the map R34, by name. -/
inductive Reg where
  | cmd | err | einfo | estk | flags
  | a | v | c | kl
  | k (i : Fin 8)
  | d | bi | bo
  | prgn | chrn | trn | poff | imglen
  | np | hl | pi | sp | sj
  | pb (j k : Fin 8)
  | plen (j : Fin 8)
  | po (j : Fin 8)
  deriving DecidableEq, Repr

/-- The access column of R34. -/
inductive Access where
  /-- host-readable and host-writable -/
  | rw
  /-- host-readable only: a write changes nothing and raises nothing (R35) -/
  | ro
  /-- host-writable only: a read returns 0 (R30) -/
  | wo
  deriving DecidableEq, Repr

/-- The errors a command or transaction can end in, by cause (R221 to R224). -/
inductive CmdError where
  /-- FormatError BAD_LENGTH: `KL` is neither 6 nor 8 (R221) -/
  | badLength (kl : BitVec 4)
  /-- FormatError BAD_CHAR: the character at this index is outside the alphabet (R221) -/
  | badChar (i : Nat)
  /-- RangeError ADDRESS (R222) -/
  | address
  /-- RangeError VALUE (R222) -/
  | value
  /-- RangeError COMPARE (R222) -/
  | compare
  /-- CartridgeReadError SHORT_HEADER (R223) -/
  | shortHeader
  /-- CartridgeReadError BANK_INDEX (R223) -/
  | bankIndex (bi : Word)
  /-- CartridgeReadError IO_FAILURE (R223) -/
  | ioFailure
  /-- IllegalCommand RESERVED_OPCODE (R224) -/
  | reservedOpcode (op : Byte)
  /-- IllegalCommand BAD_REG (R224) -/
  | badReg (reg : Byte)
  /-- IllegalCommand BAD_PATTERN: this active slot has length 0 or above 8 (R224) -/
  | badPattern (j : Nat)
  /-- IllegalCommand NO_SCAN (R224) -/
  | noScan
  /-- IllegalCommand BAD_OFFSET (R224) -/
  | badOffset
  /-- IllegalCommand BAD_NP (R224) -/
  | badNp (np : BitVec 4)
  deriving DecidableEq, Repr

/-- What the outside of the block does next (R9.1, R250): a bus transaction of the host as its script word (R94), or
a hardware reset by the platform, with the image attached from then on (R252, R264). -/
inductive HostEvent where
  | bus (w : BusWord)
  | reset (image : Image)
  deriving DecidableEq, Repr

/-- The whole state. Field comments give the spec's name and rule. -/
structure State where
  /-- `A`, patch address (R21) -/
  a : Word
  /-- `V`, patch value (R21) -/
  v : Word
  /-- `C`, patch compare (R21) -/
  c : Word
  /-- `CP`, whether the last decoded code had a compare (R26) -/
  cp : Bool
  /-- `K[0..7]`, code cells (R23) -/
  k : Vector Byte 8
  /-- `KL`, code length (R23) -/
  kl : BitVec 4
  /-- `BI`, bank index operand (R25) -/
  bi : Word
  /-- `BO`, byte offset operand (R25) -/
  bo : Word
  /-- `D`, the byte read (R25) -/
  d : Byte
  /-- `EOFF`, end-of-image flag (R25, R26) -/
  eoff : Bool
  /-- `PRGN`, PRG bank count (R27) -/
  prgn : Byte
  /-- `CHRN`, CHR bank count (R27) -/
  chrn : Byte
  /-- `TRN`, trainer present (R27) -/
  trn : Bool
  /-- `POFF`, payload offset (R27) -/
  poff : Word
  /-- `HV`, the header registers are valid (R26, R27) -/
  hv : Bool
  /-- `PB`, `PLEN`, `PO`, the pattern table (R28) -/
  slots : Vector Slot 8
  /-- `NP`, number of active slots (R28) -/
  np : BitVec 4
  /-- `SS`, scan state (R29) -/
  ss : ScanState
  /-- `SJ`, pattern being searched (R29) -/
  sj : BitVec 4
  /-- `SP`, where its next search starts (R29) -/
  sp : Word
  /-- `HL`, location of the last hit (R29) -/
  hl : Word
  /-- `PI`, pattern of the last hit (R29) -/
  pi : BitVec 3
  /-- `FND`, the last SCANN found a hit (R26) -/
  fnd : Bool
  /-- `ERR`, error class of the most recent command (R31) -/
  err : BitVec 3
  /-- `EINFO`, detail of the error (R32, R225) -/
  einfo : Word
  /-- `ESTK`, sticky error bits (R32, R231) -/
  estk : BitVec 5
  /-- `SNAP`, the hidden payload snapshot (R39) -/
  snap : Option Image
  /-- `IMG` and `IMGLEN`, the attached image (R60); no command changes it (R42) -/
  img : Image
  /-- the launch parameters `BANKOFF`, `SCAN_STEP`, `IMG_IO_FAULTS` (R6, R42); nothing changes them -/
  params : Params
  /-- MODEL's own (log 7): the number of the next draw of the free values -/
  draws : Nat
  /-- MODEL's own (log 2): the value the last transaction returned on the bus (R181) -/
  reply : Option Word
  /-- MODEL's own (log 1): what the outside still does, first event first (R9.1) -/
  script : List HostEvent
  deriving DecidableEq, Repr

/-- Why the machine stops with a fault: never. Every transaction, legal or not, has a defined outcome and the block
never halts (R261), so there is no constructor (log 16). -/
inductive Fault where
  deriving DecidableEq, Repr

/-- Why a step has no meaning. -/
inductive Refusal where
  /-- Raised by no arm of this model; the name the host reserves for an instruction without a meaning. Safe. -/
  | notModelled (mnemonic : String)
  /-- Raised by `step` on a word that is no script word: "an assembler refuses it and the block never sees it"
  (R94, U17). Safe: the model stops where the hardware is given nothing. -/
  | notScriptWord (w : BusWord)
  deriving DecidableEq, Repr

/-- The answer of a meaning or of a step. -/
abbrev Result := Host.Outcome State Fault Refusal

/-- The empty image, `IMGLEN` = 0. -/
def Image.empty : Image := ⟨0, []⟩

/-- The state right after reset (R43, R251): every register 0, no header, no scan, `SNAP` empty. The image is a
launch parameter; this state has the empty one (log 5) and the default parameters of R6 (log 6). -/
def State.reset : State where
  a := 0
  v := 0
  c := 0
  cp := false
  k := Vector.replicate 8 0
  kl := 0
  bi := 0
  bo := 0
  d := 0
  eoff := false
  prgn := 0
  chrn := 0
  trn := false
  poff := 0
  hv := false
  slots := Vector.replicate 8 Slot.zero
  np := 0
  ss := .idle
  sj := 0
  sp := 0
  hl := 0
  pi := 0
  fnd := false
  err := 0
  einfo := 0
  estk := 0
  snap := none
  img := Image.empty
  params := Params.default
  draws := 0
  reply := none
  script := []

end Sys2Proof.Machine
end

