-- ==== Sys2Proof/Machine/Flags.lean ====
section
/-! DEFINITION. The numbers behind the status registers: the class, sub-cause and index of an error
(spec/60_exceptions.md R220 to R224), `EINFO` (R225), the sticky bit (R229, R231), and the composite `FLAGS`
(spec/10_state.md R33). -/

namespace Sys2Proof.Machine

open Sys2Proof

/-- The class number of an error, the value of `ERR` (R220): 1 FormatError, 2 RangeError, 3 CartridgeReadError,
4 IllegalCommand. -/
def errClass : CmdError → BitVec 3
  | .badLength _      => 1
  | .badChar _        => 1
  | .address          => 2
  | .value            => 2
  | .compare          => 2
  | .shortHeader      => 3
  | .bankIndex _      => 3
  | .ioFailure        => 3
  | .reservedOpcode _ => 4
  | .badReg _         => 4
  | .badPattern _     => 4
  | .noScan           => 4
  | .badOffset        => 4
  | .badNp _          => 4

/-- The sub-cause, `EINFO[7:0]` (R221 to R224). -/
def errSub : CmdError → Byte
  | .badLength _      => 0x01
  | .badChar _        => 0x02
  | .address          => 0x01
  | .value            => 0x02
  | .compare          => 0x03
  | .shortHeader      => 0x01
  | .bankIndex _      => 0x02
  | .ioFailure        => 0x03
  | .reservedOpcode _ => 0x01
  | .badReg _         => 0x02
  | .badPattern _     => 0x03
  | .noScan           => 0x04
  | .badOffset        => 0x05
  | .badNp _          => 0x06

/-- The index, `EINFO[15:8]` (R221 to R224); of a bank index "min(uint(BI), 255)" (R223). -/
def errIdx : CmdError → Byte
  | .badLength kl      => kl.setWidth 8
  | .badChar i         => BitVec.ofNat 8 i
  | .address           => 0
  | .value             => 0
  | .compare           => 0
  | .shortHeader       => 0
  | .bankIndex bi      => BitVec.ofNat 8 (min bi.toNat 255)
  | .ioFailure         => 0
  | .reservedOpcode op => op
  | .badReg reg        => reg
  | .badPattern j      => BitVec.ofNat 8 j
  | .noScan            => 0
  | .badOffset         => 0
  | .badNp np          => np.setWidth 8

/-- `EINFO` of an error: sub-cause in 7:0, index in 15:8, 0 in 31:16 (R225). -/
def errInfo (e : CmdError) : Word := 0#16 ++ errIdx e ++ errSub e

/-- The sticky bit of an error: bit n for class n (R32, R229). -/
def errSticky (e : CmdError) : BitVec 5 := 1#5 <<< (errClass e).toNat

/-- A one-bit register as a bit (R7). -/
def bit (b : Bool) : BitVec 1 := BitVec.ofBool b

/-- The number of a scan state (R29). -/
def scanStateBits : ScanState → BitVec 2
  | .idle   => 0
  | .active => 1
  | .done   => 2

/-- `FLAGS` (R33): bit 0 `CP`, 1 `FND`, 2 `EOFF`, 3 `HV`, 5:4 `SS`. -/
def State.flags (s : State) : BitVec 6 := scanStateBits s.ss ++ bit s.hv ++ bit s.eoff ++ bit s.fnd ++ bit s.cp

end Sys2Proof.Machine
end

