-- ==== Sys2Proof/Machine/Ops.lean ====
section
/-! DEFINITION. The named operations over the state: the end of a command, with the error entry
(spec/60_exceptions.md R229) and the success that returns from it (R230); reset (spec/10_state.md R43); the image
space and its one access (spec/20_memory.md R60, R61); the register space (spec/10_state.md R34 to R36); and taking
the host's next event (spec/00_scope.md R5, R9). -/

namespace Sys2Proof.Machine

open Sys2Proof

/-! ### The end of a command -/

/-- The error entry, `raise <Class>(sub, idx)` (R229): `ERR`, `EINFO` and `ESTK` are written and nothing else. There
is no saved program counter, mode or handler. -/
def State.raise (s : State) (e : CmdError) : State :=
  { s with err := errClass e, einfo := errInfo e, estk := s.estk ||| errSticky e }

/-- The end of a successful command, `ERR <- 0; EINFO <- 0` (R184); it is also all the return from an error there is
(R230). -/
def State.succeed (s : State) : State := { s with err := 0, einfo := 0 }

/-- Ends a command whose pseudocode, started in `s`, came to `r`: a success keeps what was written, a raise keeps `s`
(R229: all checks precede all writes). -/
def State.settle (s : State) (r : Except CmdError State) : State :=
  match r with
  | .ok t    => t.succeed
  | .error e => s.raise e

/-- Every register to its reset value and `SNAP` emptied (R43, R183, R250). The image and the parameters stay (R252),
and so do the model's own fields (log 12). -/
def State.resetBlock (s : State) : State :=
  { State.reset with
    img := s.img, params := s.params, draws := s.draws, reply := s.reply, script := s.script }

/-- The hardware reset (R250 a), the one moment at which the platform may have replaced the image (R252). -/
def State.hardReset (s : State) (image : Image) : State := { s.resetBlock with img := image }

/-! ### The image space -/

/-- The byte listed at an offset; an offset that is not listed holds 0x00 (log 4). -/
def lookupCell : List Host.Cell → Nat → Byte
  | [], _ => 0#8
  | (x, b) :: rest, off => if x = off then b else lookupCell rest off

/-- The byte of an image at an offset, `none` at and beyond its length: `EOF` (R61). -/
def Image.read (i : Image) (off : Nat) : Option Byte :=
  if off < i.len.toNat then some (lookupCell i.cells off) else none

/-- The canonical form of a cell list from offset `lo` on and below `hi`: offsets strictly rising, no byte 0x00. -/
def cellsWf (lo hi : Nat) : List Host.Cell → Bool
  | [] => true
  | (x, b) :: rest => decide (lo ≤ x) && decide (x < hi) && (b != 0#8) && cellsWf (x + 1) hi rest

/-- The canonical form of an image: equal images are equal data. -/
def Image.wf (i : Image) : Bool := cellsWf 0 i.len.toNat i.cells

/-- The cells of a byte sequence placed at offset `off`. -/
def cellsOfBytes (off : Nat) : List Byte → List Host.Cell
  | [] => []
  | b :: bs => if b = 0#8 then cellsOfBytes (off + 1) bs else (off, b) :: cellsOfBytes (off + 1) bs

/-- The image of a byte sequence, cut at 2^32 - 1 bytes: what the platform attaches (R60). -/
def imageOfBytes (bs : List Byte) : Image :=
  ⟨BitVec.ofNat 32 (bs.take 0xFFFFFFFF).length, cellsOfBytes 0 (bs.take 0xFFFFFFFF)⟩

/-- A byte list with one cell replaced, in canonical form: a zero byte is not listed. -/
def writeCell (off : Nat) (b : Byte) : List Host.Cell → List Host.Cell
  | [] => if b = 0#8 then [] else [(off, b)]
  | (x, c) :: rest =>
    if x < off then (x, c) :: writeCell off b rest
    else
      let tail := if x = off then rest else (x, c) :: rest
      if b = 0#8 then tail else (off, b) :: tail

/-- The image with one byte replaced, for the platform that prepares it; no command of the block writes the image
(R60). -/
def Image.patch (i : Image) (off : Nat) (b : Byte) : Image :=
  if off < i.len.toNat then { i with cells := writeCell off b i.cells } else i

/-- The byte a read of the image space delivers: the image's (R61), or, where the hidden snapshot has another, either
of the two (R39, log 8). -/
def State.imgByte (s : State) (off : Nat) : Option Byte :=
  match s.snap with
  | none => s.img.read off
  | some old =>
    if old.read off = s.img.read off then s.img.read off
    else if Config.servesSnapshot s.draws off then old.read off
    else s.img.read off

/-- Whether the read of this offset draws an I/O failure (R61, R79; log 7). -/
def State.ioFails (s : State) (off : Nat) : Bool := s.params.imgIoFaults && Config.ioFault s.draws off

/-- `MemRead(off, 1)` (R61): an I/O failure, `EOF` as `none`, or a byte. -/
def State.memRead (s : State) (off : Nat) : Except CmdError (Option Byte) :=
  if s.ioFails off then .error .ioFailure else .ok (s.imgByte off)

/-- The snapshot is taken at the first read of the payload and stays (R39). -/
def State.fillSnap (s : State) : State := { s with snap := some (s.snap.getD s.img) }

/-- A command that may read the image has used its draw (log 7). -/
def State.nextDraw (s : State) : State := { s with draws := s.draws + 1 }

/-! ### The register space -/

/-- Slot `j` of the pattern table (R28). -/
def State.slot (s : State) (j : Fin 8) : Slot := s.slots[j]

/-- Slot `j` replaced (R28). -/
def State.setSlot (s : State) (j : Fin 8) (p : Slot) : State := { s with slots := s.slots.set j p }

/-- The value a register shows on the bus, zero-extended to 32 bits (R35); `CMD` reads 0 (R30), `FLAGS` is a view
(R33), `IMGLEN` shows the parameter (R181). -/
def State.readReg (s : State) : Reg → Word
  | .cmd    => 0
  | .err    => s.err.setWidth 32
  | .einfo  => s.einfo
  | .estk   => s.estk.setWidth 32
  | .flags  => s.flags.setWidth 32
  | .a      => s.a
  | .v      => s.v
  | .c      => s.c
  | .kl     => s.kl.setWidth 32
  | .k i    => s.k[i].setWidth 32
  | .d      => s.d.setWidth 32
  | .bi     => s.bi
  | .bo     => s.bo
  | .prgn   => s.prgn.setWidth 32
  | .chrn   => s.chrn.setWidth 32
  | .trn    => (bit s.trn).setWidth 32
  | .poff   => s.poff
  | .imglen => s.img.len
  | .np     => s.np.setWidth 32
  | .hl     => s.hl
  | .pi     => s.pi.setWidth 32
  | .sp     => s.sp
  | .sj     => s.sj.setWidth 32
  | .pb j k => (s.slot j).pb[k].setWidth 32
  | .plen j => (s.slot j).plen.setWidth 32
  | .po j   => (s.slot j).po

/-- A bus write to a register other than `CMD` (R35, R180): an RW register of width n stores `w[n-1:0]`, a read-only
one ignores the write, and a write to the pattern table or `NP` abandons the scan (R28). -/
def State.writeReg (s : State) (r : Reg) (w : Word) : State :=
  match r with
  | .a      => { s with a := w }
  | .v      => { s with v := w }
  | .c      => { s with c := w }
  | .kl     => { s with kl := w.setWidth 4 }
  | .k i    => { s with k := s.k.set i (w.setWidth 8) }
  | .bi     => { s with bi := w }
  | .bo     => { s with bo := w }
  | .np     => { s with np := w.setWidth 4, ss := .idle }
  | .pb j k => { s.setSlot j { s.slot j with pb := (s.slot j).pb.set k (w.setWidth 8) } with ss := .idle }
  | .plen j => { s.setSlot j { s.slot j with plen := w.setWidth 4 } with ss := .idle }
  | .po j   => { s.setSlot j { s.slot j with po := w } with ss := .idle }
  | .cmd | .err | .einfo | .estk | .flags | .d | .prgn | .chrn | .trn | .poff | .imglen | .hl | .pi | .sp | .sj => s

/-! ### The host's next event -/

/-- The state in which the first event of the script is carried out: the event is taken and the bus holds no reply
(log 1, log 2). -/
def State.takeEvent (s : State) (rest : List HostEvent) : State := { s with script := rest, reply := none }

end Sys2Proof.Machine
end

