-- ==== Sys2Proof/Machine/Operands.lean ====
section
/-! DEFINITION. The operand forms: the alphabet and the nibble table of the codec (spec/30_encoding.md R95 to R99,
spec/40_codec.md R120), the register map (spec/10_state.md R34), the addresses of the reader
(spec/20_memory.md R64 to R68) and the range checks (spec/60_exceptions.md R222). -/

namespace Sys2Proof.Machine

open Sys2Proof

/-! ### The code string -/

/-- `ALPHA`, `A P Z L G I T Y E O X U K S V N`, as its code units (R95). -/
def alphabet : List Byte :=
  [0x41, 0x50, 0x5A, 0x4C, 0x47, 0x49, 0x54, 0x59, 0x45, 0x4F, 0x58, 0x55, 0x4B, 0x53, 0x56, 0x4E]

/-- `ALPHA[v]` (R8, R95). -/
def alphaChar (n : Nibble) : Byte := alphabet.getD n.toNat 0

/-- The position of a code unit in a list of symbols. -/
def symbolIndex (ch : Byte) : List Byte → Nat → Option Nat
  | [], _ => none
  | x :: rest, i => if x = ch then some i else symbolIndex ch rest (i + 1)

/-- `NIB(c)`: the nibble of a code unit, `none` outside the alphabet (R8, R95). -/
def nibOf (ch : Byte) : Option Nibble := (symbolIndex ch alphabet 0).map (BitVec.ofNat 4)

/-- Bits `hi` down to `lo` of three bits, `x[lo+2:lo]` (R7). -/
def tri {n : Nat} (x : BitVec n) (lo : Nat) : BitVec 3 := x.extractLsb' lo 3

/-- Bit `i` as one bit, `x.bit(i)` (R7). -/
def bitOf {n : Nat} (x : BitVec n) (i : Nat) : BitVec 1 := x.extractLsb' i 1

/-- `base = address - 0x8000` of a legal address, 15 bits (R128: "equivalently `base = address[14:0]`"). -/
def baseOf (address : BitVec 16) : BitVec 15 := address.setWidth 15

/-- `EncodeNibbles` (R98, R120), row by row of the table R97: bit 3 of a nibble, then its bits 2:0. The compare is
present exactly for an 8-character code. -/
def encodeNibbles (address : BitVec 16) (value : Byte) (compare : Option Byte) : List Nibble :=
  let base := baseOf address
  match compare with
  | none =>
    [ bitOf value 7 ++ tri value 0,
      bitOf base 7  ++ tri value 4,
      0#1           ++ tri base 4,
      bitOf base 3  ++ tri base 12,
      bitOf base 11 ++ tri base 0,
      bitOf value 3 ++ tri base 8 ]
  | some compare =>
    [ bitOf value 7   ++ tri value 0,
      bitOf base 7    ++ tri value 4,
      1#1             ++ tri base 4,
      bitOf base 3    ++ tri base 12,
      bitOf base 11   ++ tri base 0,
      bitOf compare 3 ++ tri base 8,
      bitOf compare 7 ++ tri compare 0,
      bitOf value 3   ++ tri compare 4 ]

/-- A patch as a code represents it (R12, R21): address, value and, for an 8-character code, compare. -/
structure Patch where
  address : BitVec 16
  value   : Byte
  compare : Option Byte
  deriving DecidableEq, Repr

/-- `DecodeNibbles` (R98, R120): fields from nibbles. Nibble 2 bit 3 goes into nothing (R99). The length of the list
is the code's length, and the compare is present iff it is 8. -/
def decodeNibbles (n : List Nibble) : Patch :=
  let n0 := n.getD 0 0
  let n1 := n.getD 1 0
  let n2 := n.getD 2 0
  let n3 := n.getD 3 0
  let n4 := n.getD 4 0
  let n5 := n.getD 5 0
  let n6 := n.getD 6 0
  let n7 := n.getD 7 0
  let base : BitVec 15 :=
    tri n3 0 ++ bitOf n4 3 ++ tri n5 0 ++ bitOf n1 3 ++ tri n2 0 ++ bitOf n3 3 ++ tri n4 0
  let value3 := if n.length = 8 then bitOf n7 3 else bitOf n5 3
  { address := 1#1 ++ base,
    value   := bitOf n0 3 ++ tri n1 0 ++ value3 ++ tri n0 0,
    compare := if n.length = 8 then some (bitOf n6 3 ++ tri n7 0 ++ bitOf n5 3 ++ tri n6 0) else none }

/-- The nibbles of the characters from index `i` on, or the lowest index with a character outside the alphabet
(R123). -/
def readNibbles : List Byte → Nat → Except CmdError (List Nibble)
  | [], _ => .ok []
  | ch :: rest, i =>
    match nibOf ch with
    | none   => .error (.badChar i)
    | some n =>
      match readNibbles rest (i + 1) with
      | .error e => .error e
      | .ok ns   => .ok (n :: ns)

/-- The code cells with the characters of a code stored from cell `i` on; later cells keep their contents (R121
corner cases). -/
def storeChars : List Byte → Nat → Vector Byte 8 → Vector Byte 8
  | [], _, k => k
  | ch :: rest, i, k => storeChars rest (i + 1) (k.setIfInBounds i ch)

/-! ### Range checks -/

/-- A legal patch address, 0x8000 to 0xFFFF, on the full register (R128, R222). -/
def addressLegal (a : Word) : Bool := decide (0x8000 ≤ a.toNat) && decide (a.toNat ≤ 0xFFFF)

/-- A value or compare of one byte, on the full register (R222). -/
def byteLegal (w : Word) : Bool := decide (w.toNat ≤ 0xFF)

/-! ### The regions of the image -/

/-- Bank sizes: `PRG_BANK` 16384, `CHR_BANK` 8192 (R6, R42). -/
def bankSize : Region → Nat
  | .prg => 16384
  | .chr => 8192

/-- The number of banks the header promises (R27). -/
def State.bankCount (s : State) : Region → Nat
  | .prg => s.prgn.toNat
  | .chr => s.chrn.toNat

/-- Image offset of the first byte of a region; the CHR region follows the nominal PRG region (R62). -/
def State.regionStart (s : State) : Region → Nat
  | .prg => s.poff.toNat
  | .chr => s.poff.toNat + 16384 * s.prgn.toNat

/-- `PrgOff(i, off)` and `ChrOff(i, off)` (R65, R66). -/
def State.bankOffset (s : State) (r : Region) (i off : Nat) : Nat := s.regionStart r + bankSize r * i + off

/-- `RL`, the effective length of the PRG region (R64). -/
def State.prgLen (s : State) : Nat := min (16384 * s.prgn.toNat) (s.img.len.toNat - s.poff.toNat)

/-- `BANKOFF(kind, address)` (R68): the launch's strategy where it names the pair, kept inside the bank, else the
default `address mod bank size`. -/
def bankOff (strategy : List BankOffEntry) (r : Region) (address : BitVec 16) : Nat :=
  match strategy with
  | [] => address.toNat % bankSize r
  | e :: rest => if e.region = r ∧ e.address = address then e.offset % bankSize r else bankOff rest r address

/-! ### Hits -/

/-- `Cand(h, o)` (R67, R161): the sum on mathematical integers, the floor modulus 32768, the bias 0x8000. -/
def cand (h : Nat) (po : Word) : Word := BitVec.ofNat 32 ((((h : Int) + po.toInt) % 32768).toNat + 0x8000)

/-- `Step(L)` (R164). -/
def stepBy : ScanStep → Nat → Nat
  | .matchLength, len => len
  | .one, _           => 1

/-- The pattern bytes of a slot, `PB[j][0 .. PLEN[j]-1]` (R28, R101). -/
def Slot.bytes (p : Slot) : List Byte := p.pb.toList.take p.plen.toNat

/-- Slot `j`; the scanner asks only for `j < NP ≤ 8`. -/
def State.slotAt (s : State) (j : Nat) : Slot := s.slots.toList.getD j Slot.zero

/-- The number of active slots. `NP` above 8 makes SCANS fail (R162), so the bound 8 acts in no scan (log 11). -/
def State.activeSlots (s : State) : Nat := min s.np.toNat 8

/-! ### The register map -/

/-- The register of a number, `none` where the number is unmapped (R34). -/
def regOfNumber (n : Byte) : Option Reg :=
  match n.toNat with
  | 0x00 => some .cmd
  | 0x01 => some .err
  | 0x02 => some .einfo
  | 0x03 => some .estk
  | 0x04 => some .flags
  | 0x08 => some .a
  | 0x09 => some .v
  | 0x0A => some .c
  | 0x0B => some .kl
  | 0x18 => some .d
  | 0x19 => some .bi
  | 0x1A => some .bo
  | 0x20 => some .prgn
  | 0x21 => some .chrn
  | 0x22 => some .trn
  | 0x23 => some .poff
  | 0x24 => some .imglen
  | 0x28 => some .np
  | 0x29 => some .hl
  | 0x2A => some .pi
  | 0x2B => some .sp
  | 0x2C => some .sj
  | m =>
    if 0x10 ≤ m ∧ m < 0x18 then some (.k (Fin.ofNat 8 (m - 0x10)))
    else if 0x40 ≤ m ∧ m < 0xC0 then
      let j := Fin.ofNat 8 ((m - 0x40) / 0x10)
      let x := m % 0x10
      if x < 8 then some (.pb j (Fin.ofNat 8 x))
      else if x = 8 then some (.plen j)
      else if x = 9 then some (.po j)
      else none
    else none

/-- The number of a register (R34). -/
def regNumber : Reg → Byte
  | .cmd    => 0x00
  | .err    => 0x01
  | .einfo  => 0x02
  | .estk   => 0x03
  | .flags  => 0x04
  | .a      => 0x08
  | .v      => 0x09
  | .c      => 0x0A
  | .kl     => 0x0B
  | .k i    => BitVec.ofNat 8 (0x10 + i.val)
  | .d      => 0x18
  | .bi     => 0x19
  | .bo     => 0x1A
  | .prgn   => 0x20
  | .chrn   => 0x21
  | .trn    => 0x22
  | .poff   => 0x23
  | .imglen => 0x24
  | .np     => 0x28
  | .hl     => 0x29
  | .pi     => 0x2A
  | .sp     => 0x2B
  | .sj     => 0x2C
  | .pb j k => BitVec.ofNat 8 (0x40 + 0x10 * j.val + k.val)
  | .plen j => BitVec.ofNat 8 (0x40 + 0x10 * j.val + 8)
  | .po j   => BitVec.ofNat 8 (0x40 + 0x10 * j.val + 9)

/-- The width column of R34. -/
def regWidth : Reg → Nat
  | .cmd    => 8
  | .err    => 3
  | .einfo  => 32
  | .estk   => 5
  | .flags  => 6
  | .a      => 32
  | .v      => 32
  | .c      => 32
  | .kl     => 4
  | .k _    => 8
  | .d      => 8
  | .bi     => 32
  | .bo     => 32
  | .prgn   => 8
  | .chrn   => 8
  | .trn    => 1
  | .poff   => 32
  | .imglen => 32
  | .np     => 4
  | .hl     => 32
  | .pi     => 3
  | .sp     => 32
  | .sj     => 4
  | .pb _ _ => 8
  | .plen _ => 4
  | .po _   => 32

/-- The access column of R34. -/
def regAccess : Reg → Access
  | .cmd => .wo
  | .a | .v | .c | .kl | .k _ | .bi | .bo | .np | .pb _ _ | .plen _ | .po _ => .rw
  | .err | .einfo | .estk | .flags | .d | .prgn | .chrn | .trn | .poff | .imglen | .hl | .pi | .sp | .sj => .ro

/-- The registers whose every write abandons the scan (R28). -/
def inPatternTable : Reg → Bool
  | .np | .pb _ _ | .plen _ | .po _ => true
  | .cmd | .err | .einfo | .estk | .flags | .a | .v | .c | .kl | .k _ | .d | .bi | .bo | .prgn | .chrn | .trn | .poff
  | .imglen | .hl | .pi | .sp | .sj => false

end Sys2Proof.Machine
end

