-- ==== Sys2Proof/Machine/Codec.lean ====
section
/-! DEFINITION. The codec commands ENC6, ENC8, DEC (spec/40_codec.md). -/

namespace Sys2Proof.Machine

open Sys2Proof

/-- The characters of a patch's code (R96, R120). -/
def codeOfPatch (p : Patch) : List Byte := (encodeNibbles p.address p.value p.compare).map alphaChar

/-- The code cells and `KL` take a code (R121, R122). -/
def State.storeCode (s : State) (chars : List Byte) : State :=
  { s with k := storeChars chars 0 s.k, kl := BitVec.ofNat 4 chars.length }

/-- The patch registers take a decoded patch as a whole (R22, R123): `C` only when a compare was decoded. -/
def State.storePatch (s : State) (p : Patch) : State :=
  { s with
    a := p.address.setWidth 32, v := p.value.setWidth 32,
    cp := p.compare.isSome, c := (p.compare.map (·.setWidth 32)).getD s.c }

/-- The checks of an encode in order address, value, compare (R222), the last only where a compare is encoded, and
the patch that passes them (R128). -/
def State.operandPatch (s : State) (withCompare : Bool) : Except CmdError Patch :=
  if !addressLegal s.a then .error .address
  else if !byteLegal s.v then .error .value
  else if withCompare && !byteLegal s.c then .error .compare
  else .ok
    { address := s.a.setWidth 16, value := s.v.setWidth 8,
      compare := if withCompare then some (s.c.setWidth 8) else none }

/-- Encode the operand registers into the code cells (R121, R122). -/
def State.encodeOperands (s : State) (withCompare : Bool) : Except CmdError State :=
  match s.operandPatch withCompare with
  | .error e => .error e
  | .ok p    => .ok (s.storeCode (codeOfPatch p))

/-- ENC6 (R121). -/
def execEnc6 (s : State) : Result := .next (s.settle (s.encodeOperands false))

/-- ENC8 (R122). -/
def execEnc8 (s : State) : Result := .next (s.settle (s.encodeOperands true))

/-- The patch of a code of `kl` characters in the cells (R123): the length is tested first, then the characters by
rising index. Only the first `kl` cells are examined. -/
def decodeCells (k : Vector Byte 8) (kl : BitVec 4) : Except CmdError Patch :=
  if kl ≠ 6 ∧ kl ≠ 8 then .error (.badLength kl)
  else
    match readNibbles (k.toList.take kl.toNat) 0 with
    | .error e => .error e
    | .ok ns   => .ok (decodeNibbles ns)

/-- DEC (R123). -/
def execDec (s : State) : Result :=
  .next (s.settle
    (match decodeCells s.k s.kl with
    | .error e => .error e
    | .ok p    => .ok (s.storePatch p)))

end Sys2Proof.Machine
end

