-- ==== Sys2Proof/Machine/Reader.lean ====
section
/-! DEFINITION. The cartridge reader commands HDR, RDP, RDC, RDR, RDPA, RDCA (spec/41_reader.md) and the implicit
header parse they share with the scanner. -/

namespace Sys2Proof.Machine

open Sys2Proof

/-- One header byte. The caller has checked `IMGLEN >= 16`, so it is not `EOF` (R140); were it, the file would be too
short (log 19). -/
def State.headerByte (s : State) (off : Nat) : Except CmdError Byte :=
  match s.memRead off with
  | .error e     => .error e
  | .ok none     => .error .shortHeader
  | .ok (some b) => .ok b

/-- The header registers take the parsed bytes (R27, R140). -/
def State.storeHeader (s : State) (b4 b5 b6 : Byte) : State :=
  { s with
    prgn := b4, chrn := b5, trn := b6.getLsbD 2,
    poff := if b6.getLsbD 2 then 528 else 16, hv := true }

/-- `EnsureHeader()` (R140). -/
def State.ensureHeader (s : State) : Except CmdError State :=
  if s.hv then .ok s
  else if s.img.len.toNat < 16 then .error .shortHeader
  else
    match s.headerByte 4 with
    | .error e => .error e
    | .ok b4 =>
      match s.headerByte 5 with
      | .error e => .error e
      | .ok b5 =>
        match s.headerByte 6 with
        | .error e => .error e
        | .ok b6   => .ok (s.storeHeader b4 b5 b6)

/-- A command that begins with `EnsureHeader()`: a failed parse leaves the state (R140, log 7), a successful one stays
even when the rest of the command fails (R229). -/
def State.withHeader (s : State) (body : State → Except CmdError State) : State :=
  match s.ensureHeader with
  | .error e => (s.raise e).nextDraw
  | .ok h    => (h.settle (body h)).nextDraw

/-- `D` and `EOFF` take the outcome of a read: a byte, or the end of the image with `D` unchanged (R25, R226). -/
def State.deliver (s : State) (r : Option Byte) : State := { s with d := r.getD s.d, eoff := r.isNone }

/-- Reads one payload byte into `D` (R142 to R146). -/
def State.readPayload (s : State) (off : Nat) : Except CmdError State :=
  match s.memRead off with
  | .error e => .error e
  | .ok r    => .ok (s.fillSnap.deliver r)

/-- The check of the bank index against the region's bank count (R223). -/
def State.bankInRange (s : State) (r : Region) : Bool := decide (s.bi.toNat < s.bankCount r)

/-- RDP and RDC after the header: bank index, offset in the bank, then the byte (R142, R143). -/
def State.readBank (s : State) (r : Region) : Except CmdError State :=
  if !s.bankInRange r then .error (.bankIndex s.bi)
  else if bankSize r ≤ s.bo.toNat then .error .badOffset
  else s.readPayload (s.bankOffset r s.bi.toNat s.bo.toNat)

/-- RDPA and RDCA after the header: address, bank index, then the byte at the bank-relative offset (R145, R146). -/
def State.readBankAt (s : State) (r : Region) : Except CmdError State :=
  if !addressLegal s.a then .error .address
  else if !s.bankInRange r then .error (.bankIndex s.bi)
  else s.readPayload (s.bankOffset r s.bi.toNat (bankOff s.params.bankOff r (s.a.setWidth 16)))

/-- RDR after the header: an index at or past the end of the region is the end condition (R144). -/
def State.readRegion (s : State) : Except CmdError State :=
  if s.prgLen ≤ s.bo.toNat then .ok (s.deliver none)
  else s.readPayload (s.poff.toNat + s.bo.toNat)

/-- HDR (R141). -/
def execHdr (s : State) : Result := .next (s.withHeader (fun h => .ok h))

/-- RDP (R142). -/
def execRdp (s : State) : Result := .next (s.withHeader (fun h => h.readBank .prg))

/-- RDC (R143). -/
def execRdc (s : State) : Result := .next (s.withHeader (fun h => h.readBank .chr))

/-- RDR (R144). -/
def execRdr (s : State) : Result := .next (s.withHeader State.readRegion)

/-- RDPA (R145). -/
def execRdpa (s : State) : Result := .next (s.withHeader (fun h => h.readBankAt .prg))

/-- RDCA (R146). -/
def execRdca (s : State) : Result := .next (s.withHeader (fun h => h.readBankAt .chr))

end Sys2Proof.Machine
end

