-- ==== Sys2Proof/Machine/Scanner.lean ====
section
/-! DEFINITION. The pattern scanner commands SCANS and SCANN (spec/42_scanner.md). -/

namespace Sys2Proof.Machine

open Sys2Proof

/-- A legal pattern length, 1 to 8 (R28, R162). -/
def Slot.lengthLegal (p : Slot) : Bool := decide (1 ≤ p.plen.toNat) && decide (p.plen.toNat ≤ 8)

/-- The lowest active slot from `j` on, `n` of them to go, whose pattern length is illegal (R162). -/
def State.badSlot (s : State) : Nat → Nat → Option Nat
  | 0, _ => none
  | n + 1, j => if (s.slotAt j).lengthLegal then s.badSlot n (j + 1) else some j

/-- SCANS after the header: `NP`, then the pattern lengths in ascending slot, then the scan starts (R162). -/
def State.startScan (s : State) : Except CmdError State :=
  if 8 < s.np.toNat then .error (.badNp s.np)
  else
    match s.badSlot s.np.toNat 0 with
    | some j => .error (.badPattern j)
    | none   => .ok { s with ss := .active, sj := 0, sp := 0, fnd := false }

/-- SCANS (R162). -/
def execScans (s : State) : Result := .next (s.withHeader State.startScan)

/-- Whether the bytes stand at this image offset, compared by rising offset up to the first difference (R160, R70;
log 9). -/
def State.bytesAt (s : State) : List Byte → Nat → Except CmdError Bool
  | [], _ => .ok true
  | b :: rest, off =>
    match s.memRead off with
    | .error e => .error e
    | .ok r    => if r = some b then s.bytesAt rest (off + 1) else .ok false

/-- The first of the `n` hit locations from `h` on at which the pattern occurs (R160). -/
def State.firstHit (s : State) (pattern : List Byte) : Nat → Nat → Except CmdError (Option Nat)
  | 0, _ => .ok none
  | n + 1, h =>
    match s.bytesAt pattern (s.poff.toNat + h) with
    | .error e   => .error e
    | .ok true   => .ok (some h)
    | .ok false  => s.firstHit pattern n (h + 1)

/-- `NextHit(j, from)` (R160): an occurrence lies wholly inside the region, so the locations are those from `start` to
`RL - L`. -/
def State.nextHit (s : State) (j start : Nat) : Except CmdError (Option Nat) :=
  let pattern := (s.slotAt j).bytes
  s.firstHit pattern (s.prgLen + 1 - pattern.length - start) start

/-- Where the loop of R163 ends: a hit of pattern `j` at `h`, or the index at which the patterns are exhausted. -/
inductive ScanOutcome where
  | hit (j h : Nat)
  | exhausted (j : Nat)
  deriving DecidableEq, Repr

/-- The loop of R163 with `n` patterns from `j` on to go. -/
def State.seekHit (s : State) : Nat → Nat → Nat → Except CmdError ScanOutcome
  | 0, j, _ => .ok (.exhausted j)
  | n + 1, j, start =>
    match s.nextHit j start with
    | .error e      => .error e
    | .ok (some h)  => .ok (.hit j h)
    | .ok none      => s.seekHit n (j + 1) 0

/-- SCANN reports a hit (R163). -/
def State.reportHit (s : State) (j h : Nat) : State :=
  { s with
    hl := BitVec.ofNat 32 h, pi := BitVec.ofNat 3 j, a := cand h (s.slotAt j).po, fnd := true,
    sj := BitVec.ofNat 4 j, sp := BitVec.ofNat 32 (h + stepBy s.params.scanStep (s.slotAt j).plen.toNat) }

/-- SCANN reports that the sequence is exhausted (R163). -/
def State.reportExhausted (s : State) (j : Nat) : State :=
  { s with ss := .done, sj := BitVec.ofNat 4 j, sp := 0, fnd := false }

/-- SCANN, by scan state (R163). -/
def State.scanNext (s : State) : Except CmdError State :=
  match s.ss with
  | .idle => .error .noScan
  | .done => .ok { s with fnd := false }
  | .active =>
    match s.seekHit (s.activeSlots - s.sj.toNat) s.sj.toNat s.sp.toNat with
    | .error e            => .error e
    | .ok (.hit j h)      => .ok (s.fillSnap.reportHit j h)
    | .ok (.exhausted j)  => .ok (s.fillSnap.reportExhausted j)

/-- SCANN (R163); it does not parse the header (R228). -/
def execScann (s : State) : Result := .next (s.settle s.scanNext).nextDraw

end Sys2Proof.Machine
end

