-- ==== Sys2Proof/Machine/System.lean ====
section
/-! DEFINITION. The bus transactions WR and RD, command dispatch, NOP and RST (spec/43_system.md). -/

namespace Sys2Proof.Machine

open Sys2Proof

/-- NOP (R182): a successful command that does nothing else. -/
def execNop (s : State) : Result := .next s.succeed

/-- RST (R183). -/
def execRst (s : State) : Result := .next s.resetBlock

/-- `Dispatch(op)` (R184): a reserved opcode performs the error entry and nothing else (R93). The decoder of opcodes
answers no bus transaction. -/
def runCommand (op : Byte) (s : State) : Result :=
  match decodeCmd8 op with
  | .ok .nop      => execNop s
  | .ok .rst      => execRst s
  | .ok .enc6     => execEnc6 s
  | .ok .enc8     => execEnc8 s
  | .ok .dec      => execDec s
  | .ok .hdr      => execHdr s
  | .ok .rdp      => execRdp s
  | .ok .rdc      => execRdc s
  | .ok .rdr      => execRdr s
  | .ok .rdpa     => execRdpa s
  | .ok .rdca     => execRdca s
  | .ok .scans    => execScans s
  | .ok .scann    => execScann s
  | .ok (.wr _ _) => .next (s.raise (.reservedOpcode op))
  | .ok (.rd _)   => .next (s.raise (.reservedOpcode op))
  | .error _      => .next (s.raise (.reservedOpcode op))

/-- WR (R180): an unmapped number is an error (R36), a write to `CMD` runs the command of its low 8 bits (R30), any
other write stores or is ignored (R35). -/
def execWr (reg : Byte) (data : Word) (s : State) : Result :=
  match regOfNumber reg with
  | none      => .next (s.raise (.badReg reg))
  | some .cmd => runCommand (data.setWidth 8) s
  | some r    => .next (s.writeReg r data)

/-- RD (R181): the value goes on the bus; an unmapped number is an error and returns 0 (R36). -/
def execRd (reg : Byte) (s : State) : Result :=
  match regOfNumber reg with
  | none   => .next { s.raise (.badReg reg) with reply := some 0 }
  | some r => .next { s with reply := some (s.readReg r) }

end Sys2Proof.Machine
end

