-- ==== Sys2Proof/Machine/Dispatch.lean ====
section
/-! DEFINITION. The meaning of every instruction, one arm per constructor of Instr. -/

namespace Sys2Proof.Machine

open Sys2Proof

def exec (i : Instr) (s : State) : Host.Outcome State Fault Refusal :=
  match i with
  | .nop => Sys2Proof.Machine.execNop s
  | .rst => Sys2Proof.Machine.execRst s
  | .enc6 => Sys2Proof.Machine.execEnc6 s
  | .enc8 => Sys2Proof.Machine.execEnc8 s
  | .dec => Sys2Proof.Machine.execDec s
  | .hdr => Sys2Proof.Machine.execHdr s
  | .rdp => Sys2Proof.Machine.execRdp s
  | .rdc => Sys2Proof.Machine.execRdc s
  | .rdr => Sys2Proof.Machine.execRdr s
  | .rdpa => Sys2Proof.Machine.execRdpa s
  | .rdca => Sys2Proof.Machine.execRdca s
  | .scans => Sys2Proof.Machine.execScans s
  | .scann => Sys2Proof.Machine.execScann s
  | .wr reg data => Sys2Proof.Machine.execWr reg data s
  | .rd reg => Sys2Proof.Machine.execRd reg s

end Sys2Proof.Machine
end

