-- ==== Sys2Proof/Machine/Step.lean ====
section
/-! DEFINITION. One step: the next event of the outside is carried out (spec/00_scope.md R5, R9;
spec/70_reset_and_hazards.md R250, R261). -/

namespace Sys2Proof.Machine

open Sys2Proof

/-- One step. A script word is taken and its instruction runs; a word that is no script word is refused (R94); a
hardware reset is applied (R250); with nothing to do the block is idle and holds its state (R235 f, R261). -/
def step (s : State) : Host.Outcome State Fault Refusal :=
  match s.script with
  | [] => .next s
  | .reset image :: rest => .next ((s.takeEvent rest).hardReset image)
  | .bus w :: rest =>
    match decodeBus48 w with
    | .error _ => .refused (.notScriptWord w)
    | .ok i    => exec i (s.takeEvent rest)

/-- `s` with a word of the opcode table as the next transaction of the host (log 1). -/
def State.withFetchWord (s : State) (nbits w : Nat) : State :=
  { s with script := .bus (busWordOf nbits w) :: s.script }

end Sys2Proof.Machine
end

