-- ==== Sys2Proof/Machine/Sequences.lean ====
section
/-! DEFINITION. The host's side: assembler statements (spec/30_encoding.md R103) and the host sequences
(spec/44_sequences.md R190 to R206) as programs over the transactions of the block. They are not instructions of the
block (R185); every access to the block in them is one `exec` of a `WR` or an `RD`. -/

namespace Sys2Proof.Machine

open Sys2Proof

/-! ### Assembler statements -/

/-- One statement of R103: a bus write, a bus read, or a bare mnemonic. -/
inductive AsmStmt where
  | wr (r : Reg) (data : Word)
  | rd (r : Reg)
  | cmd (i : Instr)
  deriving DecidableEq, Repr

/-- "Each statement assembles to one `BUS48` word" (R103). -/
def assemble : AsmStmt → BusWord
  | .wr r data => writeWord (regNumber r) data
  | .rd r      => readWord (regNumber r)
  | .cmd i     => scriptWord i

/-- The state with a program still to be issued by the host (R94, log 1). -/
def State.withProgram (s : State) (program : List AsmStmt) : State :=
  { s with script := program.map (fun t => .bus (assemble t)) }

/-! ### Host programs -/

/-- How a host sequence fails (R190 a). -/
inductive HostFailure where
  /-- the typed failure of a command: the values of `ERR` and `EINFO` -/
  | typed (err einfo : Word)
  /-- a transaction had no meaning; no transaction of a sequence does (R261) -/
  | stopped
  /-- a scan outlived its bound; no scan does (R164) -/
  | outOfBudget
  deriving DecidableEq, Repr

/-- A program of the host over the block. -/
abbrev HostProgram (α : Type) := StateT State (Except HostFailure) α

/-- One transaction. -/
def issue (i : Instr) : HostProgram Unit := fun s =>
  match exec i s with
  | .next t    => .ok ((), t)
  | .fault _   => .error .stopped
  | .refused _ => .error .stopped

/-- `WR <reg>, <value>`. -/
def wrReg (r : Reg) (data : Word) : HostProgram Unit := issue (.wr (regNumber r) data)

/-- `rd(REG)`: the value that `RD REG` returns. -/
def rdReg (r : Reg) : HostProgram Word := do
  issue (.rd (regNumber r))
  return (← get).reply.getD 0

/-- A command, then the read of `ERR` that ends the sequence where it is not 0 (R190 a). -/
def runCmd (i : Instr) : HostProgram Unit := do
  wrReg .cmd (((opcode? i).getD 0).setWidth 32)
  let err ← rdReg .err
  if err = 0 then return ()
  else
    let einfo ← rdReg .einfo
    throw (.typed err einfo)

/-! ### Code strings and patterns -/

/-- A code string as the host holds it. -/
abbrev Code := List Byte

/-- A set of codes: no code stands twice and the order means nothing (R190 b). -/
def addCode (code : Code) (set : List Code) : List Code := if code ∈ set then set else set ++ [code]

/-- The writes of the first characters, one cell each, at most 8 (R191). -/
def writeCells : Code → Nat → HostProgram Unit
  | [], _ => pure ()
  | ch :: rest, i =>
    if i < 8 then do
      wrReg (.k (Fin.ofNat 8 i)) (ch.setWidth 32)
      writeCells rest (i + 1)
    else pure ()

/-- SETCODE (R191): no trimming, no case change, no check; the length is capped at 15. -/
def setCode (code : Code) : HostProgram Unit := do
  writeCells code 0
  wrReg .kl (BitVec.ofNat 32 (min code.length 15))

/-- The reads of `n` cells from cell `i` on (R191). -/
def readCells : Nat → Nat → HostProgram Code
  | 0, _ => return []
  | n + 1, i => do
    let ch ← rdReg (.k (Fin.ofNat 8 i))
    let rest ← readCells n (i + 1)
    return ch.setWidth 8 :: rest

/-- GETCODE (R191); there are 8 cells to read. -/
def getCode : HostProgram Code := do
  let n ← rdReg .kl
  readCells (min n.toNat 8) 0

/-- SearchPattern (R101): bytes and the signed `address_offset_of_match`. -/
structure SearchPattern where
  bytes : List Byte
  off   : Int
  deriving DecidableEq, Repr

/-- The writes of the pattern bytes of slot `j` from byte `k` on (R196). DESIGN CHOICE (log 14): R196 takes at most 8
bytes; byte `k` of a longer pattern is written to cell `k mod 8`. -/
def writePatternBytes (j : Fin 8) : List Byte → Nat → HostProgram Unit
  | [], _ => pure ()
  | b :: rest, k => do
    wrReg (.pb j (Fin.ofNat 8 k)) (b.setWidth 32)
    writePatternBytes j rest (k + 1)

/-- SETPAT (R196). DESIGN CHOICE (log 14): outside its precondition, 1 to 8 bytes and a signed 32-bit offset, the
three writes are made all the same. -/
def setPat (j : Fin 8) (p : SearchPattern) : HostProgram Unit := do
  writePatternBytes j p.bytes 0
  wrReg (.plen j) (BitVec.ofNat 32 p.bytes.length)
  wrReg (.po j) (BitVec.ofInt 32 p.off)

/-- SETPAT of a list of patterns into the slots from `j` on (R201). DESIGN CHOICE (log 14): there are 8 slots (R28);
pattern `j` of a longer list is written to slot `j mod 8`. -/
def setPats : List SearchPattern → Nat → HostProgram Unit
  | [], _ => pure ()
  | p :: rest, j => do
    setPat (Fin.ofNat 8 j) p
    setPats rest (j + 1)

/-! ### The codec functions -/

/-- DECODE (R192). -/
def decodeCode (code : Code) : HostProgram Patch := do
  setCode code
  runCmd .dec
  let a ← rdReg .a
  let v ← rdReg .v
  let flags ← rdReg .flags
  let c ← rdReg .c
  return { address := a.setWidth 16, value := v.setWidth 8,
           compare := if flags.getLsbD 0 then some (c.setWidth 8) else none }

/-- The end that REENCODE, GENRANDOM and SEEK share: with a compare `WR C` and ENC8, without one ENC6, then
GETCODE. -/
def encodeWith (compare : Option Word) : HostProgram Code := do
  match compare with
  | some c =>
    wrReg .c c
    runCmd .enc8
  | none => runCmd .enc6
  getCode

/-- REENCODE (R193): the address of the code, a new value and a new compare or none. -/
def reencode (code : Code) (newValue : Word) (newCompare : Option Word) : HostProgram Code := do
  setCode code
  runCmd .dec
  wrReg .v newValue
  encodeWith newCompare

/-- GENRANDOM (R194); the patch the host drew is the argument. -/
def genRandom (drawn : Patch) : HostProgram Code := do
  wrReg .a (drawn.address.setWidth 32)
  wrReg .v (drawn.value.setWidth 32)
  encodeWith (drawn.compare.map (·.setWidth 32))

/-! ### The Instruction Sequence Builder -/

/-- InstructionTableEntry (R102). -/
structure TableEntry where
  opcodeByte        : Byte
  operandLength     : Fin 3
  isAbsoluteOperand : Bool
  isBranch          : Bool
  deriving DecidableEq, Repr

/-- The mnemonics whose entries the idioms need (R204). -/
inductive Mnemonic where
  | lda | sta | ldx | stx | ldy | sty
  deriving DecidableEq, Repr

/-- The addressing-mode tags whose entries the idioms need (R204). -/
inductive AddrMode where
  | immediate | zeroPage | absolute
  deriving DecidableEq, Repr

/-- PATBUILD (R195): opcode byte and operand bytes `x[7:0]`, `x[15:8]`, low byte first. The rest of an operand that
does not fit is not looked at (log 14). -/
def patBuild (e : TableEntry) (operand : Option Word) : List Byte :=
  match operand with
  | none => [e.opcodeByte]
  | some x =>
    match e.operandLength with
    | 0 => [e.opcodeByte]
    | 1 => [e.opcodeByte, x.extractLsb' 0 8]
    | 2 => [e.opcodeByte, x.extractLsb' 0 8, x.extractLsb' 8 8]

/-- What a candidate of the scanner is known by: candidate address, hit location, pattern index (R200, R201). -/
structure Candidate where
  address : Word
  hit     : Word
  pattern : Word
  deriving DecidableEq, Repr

/-- The value of `MATCH_OFF`, +1 (R6, R198): the candidate is the address of the immediate operand. -/
def matchOffDefault : Int := 1

/-- The host's OPEN parameters (R6, R42): `ITAB`, `MATCH_OFF`, which is +1 unless the host gives another, `DECSET`.
`DECSET` may look at the candidate and at the image through the block (R200). -/
structure HostParams where
  itab     : Mnemonic → AddrMode → TableEntry
  matchOff : Int := matchOffDefault
  decset   : Candidate → HostProgram (List SearchPattern)

/-- One idiom: an immediate load of the target byte followed by a store whose operand is left unconstrained (R198). -/
def idiom (h : HostParams) (load store : Mnemonic) (mode : AddrMode) (target : Word) : SearchPattern :=
  { bytes := patBuild (h.itab load .immediate) (some target) ++ patBuild (h.itab store mode) none,
    off := h.matchOff }

/-- `BASE(t)` (R198). -/
def baseIdioms (h : HostParams) (target : Word) : List SearchPattern :=
  [idiom h .lda .sta .zeroPage target, idiom h .lda .sta .absolute target]

/-- `EXT(t)` (R199). -/
def extIdioms (h : HostParams) (target : Word) : List SearchPattern :=
  baseIdioms h target ++ [idiom h .ldx .stx .absolute target, idiom h .ldy .sty .absolute target]

/-! ### The Safer-Code Expander -/

/-- One bank sequence of SAFER: `n` banks from bank `i` on with the read command `read`; end of image stops this
sequence (R197). -/
def saferBanks (read : Instr) : Nat → Nat → List Code → HostProgram (List Code)
  | 0, _, acc => return acc
  | n + 1, i, acc => do
    wrReg .bi (BitVec.ofNat 32 i)
    runCmd read
    let flags ← rdReg .flags
    if flags.getLsbD 2 then return acc
    else
      let b ← rdReg .d
      let code ← encodeWith (some b)
      saferBanks read n (i + 1) (addCode code acc)

/-- SAFER (R197): the PRG bank sequence, then, separately, the CHR bank sequence. -/
def safer (code : Code) : HostProgram (List Code) := do
  setCode code
  runCmd .dec
  runCmd .hdr
  let p ← rdReg .prgn
  let q ← rdReg .chrn
  let acc ← saferBanks .rdpa p.toNat 0 []
  saferBanks .rdca q.toNat 0 acc

/-! ### The Char-Seek Engine -/

/-- More SCANNs than a scan has elements: each hit of a pattern moves its search position up, and the positions lie
below `RL` (R164). -/
def State.scanBudget (s : State) : Nat := s.activeSlots * s.prgLen + 1

/-- Drains the scan's sequence (R201). -/
def drainScan : Nat → HostProgram (List Candidate)
  | 0 => throw .outOfBudget
  | n + 1 => do
    runCmd .scann
    let flags ← rdReg .flags
    if flags.getLsbD 1 then
      let a ← rdReg .a
      let hl ← rdReg .hl
      let pi ← rdReg .pi
      let rest ← drainScan n
      return ⟨a, hl, pi⟩ :: rest
    else return []

/-- `DECPRESENT(ctx)` (R201): whether some pattern of `DECSET` occurs anywhere in the PRG region. -/
def decPresent (h : HostParams) (ctx : Candidate) : HostProgram Bool := do
  let patterns ← h.decset ctx
  setPats (patterns.map (fun p => { p with off := 0 })) 0
  wrReg .np (BitVec.ofNat 32 patterns.length)
  runCmd .scans
  runCmd .scann
  let flags ← rdReg .flags
  return flags.getLsbD 1

/-- The codes of the surviving candidates (R201). ENC6 and ENC8 end the sequence with a `RangeError` where `write`,
or a `target` that is written to `C`, is above 255 (R205, R236). -/
def emitCodes (h : HostParams) (target write : Word) (short checkDec : Bool) :
    List Candidate → List Code → HostProgram (List Code)
  | [], acc => return acc
  | ctx :: rest, acc => do
    let keep ← if checkDec then decPresent h ctx else pure true
    if keep then
      wrReg .a ctx.address
      wrReg .v write
      let code ← encodeWith (if short then none else some target)
      emitCodes h target write short checkDec rest (addCode code acc)
    else emitCodes h target write short checkDec rest acc

/-- `RUN` (R201): the codes and the number of candidates the scanner yielded. -/
def seekRun (h : HostParams) (patterns : List SearchPattern) (target write : Word) (short checkDec : Bool) :
    HostProgram (List Code × Nat) := do
  setPats patterns 0
  wrReg .np (BitVec.ofNat 32 patterns.length)
  runCmd .scans
  let candidates ← drainScan (← get).scanBudget
  let codes ← emitCodes h target write short checkDec candidates []
  return (codes, candidates.length)

/-- SEEK (R201) with the single-level fallback, counted before the filter (R202). Target and `write` are whole words:
a careless host may give either above 255 (R205). -/
def seek (h : HostParams) (target write : Word) (harder short checkDec : Bool) : HostProgram (List Code) := do
  let (codes, count) ← seekRun h (if harder then extIdioms h target else baseIdioms h target) target write short checkDec
  if count = 0 ∧ harder = false then
    let (codes, _) ← seekRun h (extIdioms h target) target write short checkDec
    return codes
  else return codes

end Sys2Proof.Machine
end

