-- ==== Sys2Proof/Safety.lean ====
section
/-! DEFINITION. The terms of the claims: the invariants the spec states of every reachable state, the conditions on
the host's script, the absence of an I/O failure, and the spec's own words for what a scan yields and what a code cell
holds. No definition of the machine uses them. -/

namespace Sys2Proof.Machine

open Sys2Proof

/-- No image byte read by the next command draws an I/O failure: always so with the default `IMG_IO_FAULTS = false`
(R61), and for the draws that do not fail when it is true. -/
def State.NoIoFailure (s : State) : Prop := ∀ off, s.ioFails off = false

/-- The snapshot is empty or equals the image, the host's duty R254: "Under the duty `SNAP` equals `IMG`" (R39). -/
def State.SnapInv (s : State) : Prop := s.snap = none ∨ s.snap = some s.img

/-- The header registers (R27): all 0 while `HV = 0`, the parse of the attached image while `HV = 1` (R140). -/
def State.HeaderInv (s : State) : Prop :=
  if s.hv then
    16 ≤ s.img.len.toNat ∧ s.img.read 4 = some s.prgn ∧ s.img.read 5 = some s.chrn ∧
      (∃ b, s.img.read 6 = some b ∧ s.trn = b.getLsbD 2) ∧ s.poff = if s.trn then 528 else 16
  else s.prgn = 0 ∧ s.chrn = 0 ∧ s.trn = false ∧ s.poff = 0

/-- The scan state (R165 a, b; R163 for the exhausted scan). -/
def State.ScanInv (s : State) : Prop :=
  (s.ss ≠ .idle → s.hv = true ∧ s.np.toNat ≤ 8 ∧ ∀ j, j < s.np.toNat → (s.slotAt j).lengthLegal = true) ∧
  (s.ss = .active → s.sj.toNat ≤ s.np.toNat ∧ s.sp.toNat ≤ s.prgLen) ∧
  (s.ss = .done → s.sj = s.np ∧ s.sp = 0)

/-- The error registers: classes 5 to 7 never occur (R31), `EINFO` is 0 exactly when `ERR` is (R32, R225), its upper
half is 0 (R225), the sticky bit of the present error is set and bit 0 is not (R32, R231). -/
def State.ErrorInv (s : State) : Prop :=
  s.err.toNat ≤ 4 ∧ (s.err = 0 ↔ s.einfo = 0) ∧ s.einfo.toNat < 0x10000 ∧ s.estk.getLsbD 0 = false ∧
    (s.err ≠ 0 → s.estk.getLsbD s.err.toNat = true)

/-- An event the platform or the host may present: a script word (R94), an image in canonical form. -/
def HostEvent.Legal : HostEvent → Prop
  | .bus w     => w.wellFormed = true
  | .reset img => img.wf = true

/-- Every event still to come is legal. -/
def State.ScriptLegal (s : State) : Prop := ∀ e, e ∈ s.script → e.Legal

/-- The images still to be attached are in canonical form. -/
def State.ScriptImagesWf (s : State) : Prop := ∀ img, HostEvent.reset img ∈ s.script → img.wf = true

/-- The invariant of the machine. -/
def State.Inv (s : State) : Prop :=
  s.img.wf = true ∧ s.ScriptImagesWf ∧ s.SnapInv ∧ s.HeaderInv ∧ s.ScanInv ∧ s.ErrorInv

/-- No command or transaction has ended in an error since the last reset (R231). -/
def State.NoErrorYet (s : State) : Prop := s.estk = 0

/-- The last command ended with `CartridgeReadError(IO_FAILURE, 0)` (R223, R225). -/
def State.EndedInIoFailure (s : State) : Prop := s.err = 3 ∧ s.einfo = 0x0003

/-- The state after a command that ends with IO_FAILURE: the error entry and nothing else (R79, R229), but for the
draw counter (log 7). -/
def State.ioFailed (s : State) : State :=
  { s with err := 3, einfo := 0x0003, estk := s.estk ||| 0b01000#5, draws := s.draws + 1 }

/-- The image byte a command reads with the header cached: that of R142 to R146 where the operands are in range, else
none; HDR and SCANS read none. SCANN is not among these commands, see `State.Examines`. -/
def State.payloadOffset (s : State) : Instr → Option Nat
  | .rdp =>
    if s.bi.toNat < s.prgn.toNat ∧ s.bo.toNat < 16384 then some (s.poff.toNat + 16384 * s.bi.toNat + s.bo.toNat)
    else none
  | .rdc =>
    if s.bi.toNat < s.chrn.toNat ∧ s.bo.toNat < 8192 then
      some (s.poff.toNat + 16384 * s.prgn.toNat + 8192 * s.bi.toNat + s.bo.toNat)
    else none
  | .rdr => if s.bo.toNat < s.prgLen then some (s.poff.toNat + s.bo.toNat) else none
  | .rdpa =>
    if 0x8000 ≤ s.a.toNat ∧ s.a.toNat ≤ 0xFFFF ∧ s.bi.toNat < s.prgn.toNat then
      some (s.poff.toNat + 16384 * s.bi.toNat + bankOff s.params.bankOff .prg (s.a.setWidth 16))
    else none
  | .rdca =>
    if 0x8000 ≤ s.a.toNat ∧ s.a.toNat ≤ 0xFFFF ∧ s.bi.toNat < s.chrn.toNat then
      some (s.poff.toNat + 16384 * s.prgn.toNat + 8192 * s.bi.toNat +
        bankOff s.params.bankOff .chr (s.a.setWidth 16))
    else none
  | .nop | .rst | .enc6 | .enc8 | .dec | .hdr | .scans | .scann | .wr _ _ | .rd _ => none

/-- The commands that begin with `EnsureHeader()` and go on after it (R142 to R146, R162). -/
def parsesHeaderFirst : Instr → Bool
  | .rdp | .rdc | .rdr | .rdpa | .rdca | .scans => true
  | .nop | .rst | .enc6 | .enc8 | .dec | .hdr | .scann | .wr _ _ | .rd _ => false

/-- The instructions that reset the block: RST, and the write of its opcode to `CMD` (R183, R184). -/
def isReset : Instr → Bool
  | .rst => true
  | .wr reg data => reg == 0x00#8 && data.setWidth 8 == 0x01#8
  | .nop | .enc6 | .enc8 | .dec | .hdr | .rdp | .rdc | .rdr | .rdpa | .rdca | .scans | .scann | .rd _ => false

/-- The transactions that write the error registers: every command, a write to `CMD`, and a transaction on an unmapped
number (R35, R36, R184). -/
def reportsOutcome : Instr → Bool
  | .wr reg _ => reg == 0x00#8 || (regOfNumber reg).isNone
  | .rd reg => (regOfNumber reg).isNone
  | .nop | .rst | .enc6 | .enc8 | .dec | .hdr | .rdp | .rdc | .rdr | .rdpa | .rdca | .scans | .scann => true

/-- A code cell holds the symbol of a nibble with these bits, bit 0 first: one row of the table R97. -/
def cellHolds (ch : Byte) (b0 b1 b2 b3 : Bool) : Prop :=
  ∃ n : Nibble, nibOf ch = some n ∧ n.getLsbD 0 = b0 ∧ n.getLsbD 1 = b1 ∧ n.getLsbD 2 = b2 ∧ n.getLsbD 3 = b3

/-- `Occ(j, h)` (R160). -/
def State.occurs (s : State) (j h : Nat) : Bool :=
  decide (h + (s.slotAt j).plen.toNat ≤ s.prgLen) &&
    (List.range (s.slotAt j).plen.toNat).all
      (fun k => s.img.read (s.poff.toNat + h + k) == some ((s.slotAt j).pb.toList.getD k 0))

/-- Where SCANN starts to search pattern `j`: at `SP` for the pattern `SJ`, at 0 for the later ones (R163). -/
def State.searchStart (s : State) (j : Nat) : Nat := if j = s.sj.toNat then s.sp.toNat else 0

/-- SCANN compares byte `k` of pattern `j` at location `h`: no hit comes before that location, and the bytes of the
pattern before `k` stand there. The order is the model's choice (log 9). -/
def State.Examines (s : State) (j h k : Nat) : Prop :=
  s.sj.toNat ≤ j ∧ j < s.np.toNat ∧ s.searchStart j ≤ h ∧ h + (s.slotAt j).plen.toNat ≤ s.prgLen ∧
    k < (s.slotAt j).plen.toNat ∧
    (∀ m, m < k → s.img.read (s.poff.toNat + h + m) = some ((s.slotAt j).pb.toList.getD m 0)) ∧
    (∀ x, s.searchStart j ≤ x → x < h → s.occurs j x = false) ∧
    (∀ i x, s.sj.toNat ≤ i → i < j → s.searchStart i ≤ x → s.occurs i x = false)

/-- The hits of pattern `j` in the sequence R164, looking at `n` positions from `pos` on at most. -/
def State.hitsFrom (s : State) (j : Nat) : Nat → Nat → List Nat
  | 0, _ => []
  | n + 1, pos =>
    if s.occurs j pos then pos :: s.hitsFrom j n (pos + stepBy s.params.scanStep (s.slotAt j).plen.toNat)
    else s.hitsFrom j n (pos + 1)

/-- The sequence a scan produces (R164): by pattern, then by location, each with its candidate address. -/
def State.scanSequence (s : State) : List (Nat × Nat × Word) :=
  (List.range s.np.toNat).flatMap
    (fun j => (s.hitsFrom j (s.prgLen + 1) 0).map (fun h => (j, h, cand h (s.slotAt j).po)))

/-- The results of successive SCANNs up to the first with `FND = 0`, at most `n`: `PI`, `HL`, `A` (R165 c). -/
def scannResults : Nat → State → List (Nat × Nat × Word)
  | 0, _ => []
  | n + 1, s =>
    match exec .scann s with
    | .next t    => if t.fnd then (t.pi.toNat, t.hl.toNat, t.a) :: scannResults n t else []
    | .fault _   => []
    | .refused _ => []

/-- The state after `n` steps, `none` if one of them stops. -/
def stepMany : Nat → State → Option State
  | 0, s => some s
  | n + 1, s =>
    match step s with
    | .next t    => stepMany n t
    | .fault _   => none
    | .refused _ => none

end Sys2Proof.Machine
end

