-- ==== Sys2Proof/Certificates/Slice0/Obligations.lean ====
section
/-! DEFINITION. The statements for the provers, by family: encoding, step, bus, system, codec, reader, scanner,
invariants, host sequences. Each docstring names the rule of spec/ it formalises, or the log entry it rests on. -/

open Sys2Proof Sys2Proof.Machine

/-! ### Encoding -/

/-- Decoding the word of an instruction gives the instruction back, for every instruction and every operand (R92,
R94). -/
def Obligations.DecodeInvertsEncode : Prop :=
  ∀ i : Instr, decodeBits (encode i).1 (encode i).2 = .ok i ∧ decodeTableWord (encode i).1 (encode i).2 = some i

/-- R94: which words are script words, and what each is. A word is a write with bit 47, a read without it and without
data, and nothing else. -/
def Obligations.ScriptWordsAreExactlyTheEncodings : Prop :=
  ∀ w : BusWord,
    (∀ reg data, decodeBus48 w = .ok (.wr reg data) ↔ w.toNat = 2 ^ 47 + reg.toNat * 2 ^ 32 + data.toNat) ∧
    (∀ reg, decodeBus48 w = .ok (.rd reg) ↔ w.toNat = reg.toNat * 2 ^ 32) ∧
    ((∃ e, decodeBus48 w = .error e) ↔
      (w.toNat / 2 ^ 40 % 2 ^ 7 ≠ 0 ∨ (w.toNat < 2 ^ 47 ∧ w.toNat % 2 ^ 32 ≠ 0)))

/-- The 13 opcodes of R92, and a write and a read written out from R94, decode to what they stand for. -/
def Obligations.WrittenOutWordsDecode : Prop :=
  decodeTableWord 8 0b00000000 = some .nop ∧
  decodeTableWord 8 0b00000001 = some .rst ∧
  decodeTableWord 8 0b00010000 = some .enc6 ∧
  decodeTableWord 8 0b00010001 = some .enc8 ∧
  decodeTableWord 8 0b00010010 = some .dec ∧
  decodeTableWord 8 0b00100000 = some .hdr ∧
  decodeTableWord 8 0b00100001 = some .rdp ∧
  decodeTableWord 8 0b00100010 = some .rdc ∧
  decodeTableWord 8 0b00100011 = some .rdr ∧
  decodeTableWord 8 0b00100100 = some .rdpa ∧
  decodeTableWord 8 0b00100101 = some .rdca ∧
  decodeTableWord 8 0b00110000 = some .scans ∧
  decodeTableWord 8 0b00110001 = some .scann ∧
  decodeTableWord 48 0x8008000091D9 = some (.wr 0x08#8 0x000091D9#32) ∧
  decodeTableWord 48 0x001000000000 = some (.rd 0x10#8)

/-! ### Step -/

/-- A step takes the host's next event and carries it out: a script word's instruction runs in the state without the
event, a hardware reset is applied, a word that is no script word is refused, and with nothing to do the state stays
(R5, R94, R250, R261). That the outside's events stand in a script and an RD's value in a reply is the model's choice
(logs 1, 2), as are the refusal (log 3) and the idle step (log 13). The reset clause is the model's choice too: its
event carries the image attached from then on (log 10), and the draw counter (log 7) and the rest of the script survive
it (log 12). -/
def Obligations.StepRunsTheDecodedInstruction : Prop :=
  (∀ (s : State) (w : BusWord) (rest : List HostEvent) (i : Instr),
    s.script = .bus w :: rest → decodeBus48 w = .ok i →
      step s = exec i { s with script := rest, reply := none }) ∧
  (∀ (s : State) (w : BusWord) (rest : List HostEvent) (e : DecodeError),
    s.script = .bus w :: rest → decodeBus48 w = .error e → step s = .refused (.notScriptWord w)) ∧
  (∀ (s : State) (image : Image) (rest : List HostEvent),
    s.script = .reset image :: rest →
      step s = .next
        { State.reset with img := image, params := s.params, draws := s.draws, script := rest }) ∧
  (∀ s : State, s.script = [] → step s = .next s)

/-- R30: a write to `CMD` executes the command whose opcode is the low 8 bits of the datum, whatever the others; a
read of `CMD` returns 0. -/
def Obligations.WriteToCmdRunsTheCommand : Prop :=
  ∀ s : State,
    (∀ (i : Instr) (op : Byte) (data : Word),
      opcode? i = some op → data.setWidth 8 = op → exec (.wr 0x00#8 data) s = exec i s) ∧
    exec (.rd 0x00#8) s = .next { s with reply := some 0 }

/-- R93: of the 256 opcode values 13 are commands, each its own, and 243 are illegal; a write of a reserved opcode to
`CMD` performs the error entry RESERVED_OPCODE with the opcode as index and changes nothing else. -/
def Obligations.ReservedOpcodesAreIllegalCommands : Prop :=
  (∀ (op : Byte) (i : Instr), decodeCmd8 op = .ok i ↔ opcode? i = some op) ∧
  (List.range 256).filter (fun n => (decodeCmd8 (BitVec.ofNat 8 n)).isOk) =
    [0x00, 0x01, 0x10, 0x11, 0x12, 0x20, 0x21, 0x22, 0x23, 0x24, 0x25, 0x30, 0x31] ∧
  ∀ (s : State) (data : Word),
    data.toNat % 256 ∉ [0x00, 0x01, 0x10, 0x11, 0x12, 0x20, 0x21, 0x22, 0x23, 0x24, 0x25, 0x30, 0x31] →
      exec (.wr 0x00#8 data) s = .next
        { s with err := 4, einfo := BitVec.ofNat 32 (data.toNat % 256 * 256 + 1), estk := s.estk ||| 0b10000#5 }

/-! ### Bus transactions -/

/-- The register map R34: the number column of the table, each named register has that number and is the register of
it, and no other number is mapped. -/
def Obligations.RegisterMapIsOneToOne : Prop :=
  (∀ r : Reg, regOfNumber (regNumber r) = some r) ∧
  (∀ (n : Byte) (r : Reg), regOfNumber n = some r → regNumber r = n) ∧
  (∀ r : Reg, (regNumber r).toNat =
    match r with
    | .cmd    => 0x00
    | .err    => 0x01
    | .einfo  => 0x02
    | .estk   => 0x03
    | .flags  => 0x04
    | .a      => 0x08
    | .v      => 0x09
    | .c      => 0x0A
    | .kl     => 0x0B
    | .k i    => 0x10 + i.val
    | .d      => 0x18
    | .bi     => 0x19
    | .bo     => 0x1A
    | .prgn   => 0x20
    | .chrn   => 0x21
    | .trn    => 0x22
    | .poff   => 0x23
    | .imglen => 0x24
    | .np     => 0x28
    | .hl     => 0x29
    | .pi     => 0x2A
    | .sp     => 0x2B
    | .sj     => 0x2C
    | .pb j k => 0x40 + 0x10 * j.val + k.val
    | .plen j => 0x40 + 0x10 * j.val + 8
    | .po j   => 0x40 + 0x10 * j.val + 9)

/-- R35, R180, R28: a write to a read-write register stores the low bits of its width, shows in no other register but
`FLAGS`, abandons the scan exactly when it is to the pattern table or `NP`, and touches neither the other flags nor the
image. -/
def Obligations.WriteStoresTheLowBits : Prop :=
  ∀ (s : State) (n : Byte) (r : Reg) (w : Word),
    regOfNumber n = some r → regAccess r = .rw →
      ∃ t : State, exec (.wr n w) s = .next t ∧
        (t.readReg r).toNat = w.toNat % 2 ^ regWidth r ∧
        (∀ r', r' ≠ r → r' ≠ .flags → t.readReg r' = s.readReg r') ∧
        t.ss = (if inPatternTable r then .idle else s.ss) ∧
        t.cp = s.cp ∧ t.fnd = s.fnd ∧ t.eoff = s.eoff ∧ t.hv = s.hv ∧
        t.snap = s.snap ∧ t.img = s.img ∧ t.params = s.params ∧ t.draws = s.draws ∧ t.reply = s.reply ∧
        t.script = s.script

/-- R35: a write to a read-only register changes nothing and raises nothing. -/
def Obligations.WriteToReadOnlyIsIgnored : Prop :=
  ∀ (s : State) (n : Byte) (r : Reg) (w : Word),
    regOfNumber n = some r → regAccess r = .ro → exec (.wr n w) s = .next s

/-- R36, R224: a transaction on an unmapped number performs the error entry BAD_REG and nothing else; a read returns
0. -/
def Obligations.UnmappedNumberIsIllegalCommand : Prop :=
  ∀ (s : State) (n : Byte) (w : Word), regOfNumber n = none →
    exec (.wr n w) s = .next
      { s with err := 4, einfo := BitVec.ofNat 32 (n.toNat * 256 + 2), estk := s.estk ||| 0b10000#5 } ∧
    exec (.rd n) s = .next
      { s with err := 4, einfo := BitVec.ofNat 32 (n.toNat * 256 + 2), estk := s.estk ||| 0b10000#5, reply := some 0 }

/-- R181, R33, R35: a read of a mapped number changes nothing and returns the register, zero-extended; `CMD` returns 0
and `FLAGS` is the composite of the five flags. -/
def Obligations.ReadReturnsTheRegister : Prop :=
  ∀ (s : State) (n : Byte) (r : Reg), regOfNumber n = some r →
    ∃ v : Word, exec (.rd n) s = .next { s with reply := some v } ∧
      v.toNat =
        match r with
        | .cmd    => 0
        | .err    => s.err.toNat
        | .einfo  => s.einfo.toNat
        | .estk   => s.estk.toNat
        | .flags  => s.cp.toNat + 2 * s.fnd.toNat + 4 * s.eoff.toNat + 8 * s.hv.toNat +
                      16 * (match s.ss with | .idle => 0 | .active => 1 | .done => 2)
        | .a      => s.a.toNat
        | .v      => s.v.toNat
        | .c      => s.c.toNat
        | .kl     => s.kl.toNat
        | .k i    => s.k[i].toNat
        | .d      => s.d.toNat
        | .bi     => s.bi.toNat
        | .bo     => s.bo.toNat
        | .prgn   => s.prgn.toNat
        | .chrn   => s.chrn.toNat
        | .trn    => s.trn.toNat
        | .poff   => s.poff.toNat
        | .imglen => s.img.len.toNat
        | .np     => s.np.toNat
        | .hl     => s.hl.toNat
        | .pi     => s.pi.toNat
        | .sp     => s.sp.toNat
        | .sj     => s.sj.toNat
        | .pb j k => s.slots[j].pb[k].toNat
        | .plen j => s.slots[j].plen.toNat
        | .po j   => s.slots[j].po.toNat

/-- R256: after a write to the pattern table or `NP` no scan exists and a SCANN fails with NO_SCAN, and changes nothing but the error
registers (and the draw counter, log 7). -/
def Obligations.PatternTableWriteAbandonsTheScan : Prop :=
  ∀ (s : State) (n : Byte) (r : Reg) (w : Word),
    regOfNumber n = some r → inPatternTable r = true →
      ∃ t : State, exec (.wr n w) s = .next t ∧ t.ss = .idle ∧
        exec .scann t = .next
          { t with err := 4, einfo := 0x0004, estk := t.estk ||| 0b10000#5, draws := t.draws + 1 }

/-! ### NOP, RST, reset -/

/-- R182: NOP clears `ERR` and `EINFO` and does nothing else; in particular `ESTK` stays. -/
def Obligations.NopClearsErrAndEinfoOnly : Prop :=
  ∀ s : State, exec .nop s = .next { s with err := 0, einfo := 0 }

/-- R183, R252: RST leaves every register 0 but `IMGLEN`, empties the snapshot, and leaves the image and the
parameters. The hardware reset has the same effect, on the image attached by then; that clause, the one on `step`, is
the model's choice: the event in the script (log 1), the reply cleared before it (log 2), the image it carries (log 10),
the model's own fields left as RST leaves them (log 12). -/
def Obligations.RstZeroesEveryRegister : Prop :=
  ∀ s : State, ∃ t : State, exec .rst s = .next t ∧
    (∀ r : Reg, r ≠ .imglen → t.readReg r = 0) ∧ t.readReg .imglen = s.readReg .imglen ∧
    t.snap = none ∧ t.img = s.img ∧ t.params = s.params ∧
    ∀ (u : State) (image : Image) (rest : List HostEvent),
      u.script = .reset image :: rest → s = { u with script := rest, reply := none } →
        step u = .next { t with img := image }

/-- R43: in the reset state every register but `IMGLEN` reads 0, `IMGLEN` shows the length of the image (the empty one,
log 5), and the snapshot is empty. -/
def Obligations.ResetStateReadsZero : Prop :=
  (∀ r : Reg, r ≠ .imglen → State.reset.readReg r = 0) ∧ State.reset.readReg .imglen = State.reset.img.len ∧
    State.reset.snap = none

/-! ### Codec -/

/-- R95: the sixteen symbols by nibble value, and no other code unit has a nibble. -/
def Obligations.AlphabetHasSixteenSymbols : Prop :=
  (∀ n : Nibble, (nibOf (alphaChar n) = some n ∧
    alphaChar n = [0x41#8, 0x50#8, 0x5A#8, 0x4C#8, 0x47#8, 0x49#8, 0x54#8, 0x59#8,
                   0x45#8, 0x4F#8, 0x58#8, 0x55#8, 0x4B#8, 0x53#8, 0x56#8, 0x4E#8].getD n.toNat 0)) ∧
  (∀ (ch : Byte) (n : Nibble), nibOf ch = some n → alphaChar n = ch)

/-- R127: "`A = 0x8000, V = 0x00, ENC6` gives `"AAAAAA"`", and with `C = 0` ENC8 gives `"AAEAAAAA"`, whatever else the
state holds. -/
def Obligations.KnownVector : Prop :=
  ∀ s : State, s.a = 0x8000 → s.v = 0 →
    (∃ t : State, exec .enc6 s = .next t ∧ t.kl = 6 ∧
      t.k.toList.take 6 = [0x41#8, 0x41#8, 0x41#8, 0x41#8, 0x41#8, 0x41#8]) ∧
    (s.c = 0 → ∃ t : State, exec .enc8 s = .next t ∧ t.kl = 8 ∧
      t.k.toList = [0x41#8, 0x41#8, 0x45#8, 0x41#8, 0x41#8, 0x41#8, 0x41#8, 0x41#8])

/-- R121: ENC6 on a legal address and value stores the six symbols of the table R97 and length 6; the last two cells
and everything else stay, `C` whatever it holds. -/
def Obligations.Enc6StoresTheSixCharacterCode : Prop :=
  ∀ s : State, 0x8000 ≤ s.a.toNat → s.a.toNat ≤ 0xFFFF → s.v.toNat ≤ 0xFF →
    ∃ t : State, exec .enc6 s = .next t ∧
      t = { s with k := t.k, kl := 6, err := 0, einfo := 0 } ∧
      cellHolds t.k[0] (s.v.getLsbD 0) (s.v.getLsbD 1) (s.v.getLsbD 2) (s.v.getLsbD 7) ∧
      cellHolds t.k[1] (s.v.getLsbD 4) (s.v.getLsbD 5) (s.v.getLsbD 6) (s.a.getLsbD 7) ∧
      cellHolds t.k[2] (s.a.getLsbD 4) (s.a.getLsbD 5) (s.a.getLsbD 6) false ∧
      cellHolds t.k[3] (s.a.getLsbD 12) (s.a.getLsbD 13) (s.a.getLsbD 14) (s.a.getLsbD 3) ∧
      cellHolds t.k[4] (s.a.getLsbD 0) (s.a.getLsbD 1) (s.a.getLsbD 2) (s.a.getLsbD 11) ∧
      cellHolds t.k[5] (s.a.getLsbD 8) (s.a.getLsbD 9) (s.a.getLsbD 10) (s.v.getLsbD 3) ∧
      t.k[6] = s.k[6] ∧ t.k[7] = s.k[7]

/-- R122: ENC8 on a legal address, value and compare stores the eight symbols of the table R97 and length 8. -/
def Obligations.Enc8StoresTheEightCharacterCode : Prop :=
  ∀ s : State, 0x8000 ≤ s.a.toNat → s.a.toNat ≤ 0xFFFF → s.v.toNat ≤ 0xFF → s.c.toNat ≤ 0xFF →
    ∃ t : State, exec .enc8 s = .next t ∧
      t = { s with k := t.k, kl := 8, err := 0, einfo := 0 } ∧
      cellHolds t.k[0] (s.v.getLsbD 0) (s.v.getLsbD 1) (s.v.getLsbD 2) (s.v.getLsbD 7) ∧
      cellHolds t.k[1] (s.v.getLsbD 4) (s.v.getLsbD 5) (s.v.getLsbD 6) (s.a.getLsbD 7) ∧
      cellHolds t.k[2] (s.a.getLsbD 4) (s.a.getLsbD 5) (s.a.getLsbD 6) true ∧
      cellHolds t.k[3] (s.a.getLsbD 12) (s.a.getLsbD 13) (s.a.getLsbD 14) (s.a.getLsbD 3) ∧
      cellHolds t.k[4] (s.a.getLsbD 0) (s.a.getLsbD 1) (s.a.getLsbD 2) (s.a.getLsbD 11) ∧
      cellHolds t.k[5] (s.a.getLsbD 8) (s.a.getLsbD 9) (s.a.getLsbD 10) (s.c.getLsbD 3) ∧
      cellHolds t.k[6] (s.c.getLsbD 0) (s.c.getLsbD 1) (s.c.getLsbD 2) (s.c.getLsbD 7) ∧
      cellHolds t.k[7] (s.c.getLsbD 4) (s.c.getLsbD 5) (s.c.getLsbD 6) (s.v.getLsbD 3)

/-- R222, R228: ENC6 and ENC8 report the first operand out of range in the order address, value, compare, ENC6 does
not look at `C`, and nothing but the error registers changes. -/
def Obligations.EncodeReportsTheFirstOperandOutOfRange : Prop :=
  ∀ s : State,
    ((s.a.toNat < 0x8000 ∨ 0xFFFF < s.a.toNat) →
      exec .enc6 s = .next { s with err := 2, einfo := 0x0001, estk := s.estk ||| 0b00100#5 } ∧
      exec .enc8 s = .next { s with err := 2, einfo := 0x0001, estk := s.estk ||| 0b00100#5 }) ∧
    (0x8000 ≤ s.a.toNat → s.a.toNat ≤ 0xFFFF → 0xFF < s.v.toNat →
      exec .enc6 s = .next { s with err := 2, einfo := 0x0002, estk := s.estk ||| 0b00100#5 } ∧
      exec .enc8 s = .next { s with err := 2, einfo := 0x0002, estk := s.estk ||| 0b00100#5 }) ∧
    (0x8000 ≤ s.a.toNat → s.a.toNat ≤ 0xFFFF → s.v.toNat ≤ 0xFF → 0xFF < s.c.toNat →
      exec .enc8 s = .next { s with err := 2, einfo := 0x0003, estk := s.estk ||| 0b00100#5 })

/-- R123: DEC of a 6-character code over the alphabet. `C` keeps its contents; cells 6 and 7 are not examined. -/
def Obligations.DecDecodesSixCharacters : Prop :=
  ∀ (s : State) (n0 n1 n2 n3 n4 n5 : Nibble), s.kl = 6 →
    s.k[0] = alphaChar n0 → s.k[1] = alphaChar n1 → s.k[2] = alphaChar n2 →
    s.k[3] = alphaChar n3 → s.k[4] = alphaChar n4 → s.k[5] = alphaChar n5 →
    ∃ t : State, exec .dec s = .next t ∧
      t = { s with a := t.a, v := t.v, cp := false, err := 0, einfo := 0 } ∧
      t.a.toNat = 0x8000 + n4.toNat % 8 + n3.toNat / 8 * 8 + n2.toNat % 8 * 16 + n1.toNat / 8 * 128 +
        n5.toNat % 8 * 256 + n4.toNat / 8 * 2048 + n3.toNat % 8 * 4096 ∧
      t.v.toNat = n0.toNat % 8 + n5.toNat / 8 * 8 + n1.toNat % 8 * 16 + n0.toNat / 8 * 128

/-- R123: DEC of an 8-character code over the alphabet. -/
def Obligations.DecDecodesEightCharacters : Prop :=
  ∀ (s : State) (n0 n1 n2 n3 n4 n5 n6 n7 : Nibble), s.kl = 8 →
    s.k[0] = alphaChar n0 → s.k[1] = alphaChar n1 → s.k[2] = alphaChar n2 → s.k[3] = alphaChar n3 →
    s.k[4] = alphaChar n4 → s.k[5] = alphaChar n5 → s.k[6] = alphaChar n6 → s.k[7] = alphaChar n7 →
    ∃ t : State, exec .dec s = .next t ∧
      t = { s with a := t.a, v := t.v, c := t.c, cp := true, err := 0, einfo := 0 } ∧
      t.a.toNat = 0x8000 + n4.toNat % 8 + n3.toNat / 8 * 8 + n2.toNat % 8 * 16 + n1.toNat / 8 * 128 +
        n5.toNat % 8 * 256 + n4.toNat / 8 * 2048 + n3.toNat % 8 * 4096 ∧
      t.v.toNat = n0.toNat % 8 + n7.toNat / 8 * 8 + n1.toNat % 8 * 16 + n0.toNat / 8 * 128 ∧
      t.c.toNat = n6.toNat % 8 + n5.toNat / 8 * 8 + n7.toNat % 8 * 16 + n6.toNat / 8 * 128

/-- R221: DEC fails on a length other than 6 and 8 before it looks at any character, and else on the lowest character
outside the alphabet; nothing but the error registers changes. -/
def Obligations.DecReportsLengthThenFirstBadCharacter : Prop :=
  ∀ s : State,
    (s.kl ≠ 6 → s.kl ≠ 8 →
      exec .dec s = .next
        { s with err := 1, einfo := BitVec.ofNat 32 (s.kl.toNat * 256 + 1), estk := s.estk ||| 0b00010#5 }) ∧
    (∀ i : Fin 8, s.kl = 6 ∨ s.kl = 8 → i.val < s.kl.toNat → nibOf s.k[i] = none →
      (∀ j : Fin 8, j < i → nibOf s.k[j] ≠ none) →
      exec .dec s = .next
        { s with err := 1, einfo := BitVec.ofNat 32 (i.val * 256 + 2), estk := s.estk ||| 0b00010#5 })

/-- R124: patch to code to patch gives the patch back, with and without compare. -/
def Obligations.EncodeThenDecodeGivesThePatch : Prop :=
  ∀ s : State, 0x8000 ≤ s.a.toNat → s.a.toNat ≤ 0xFFFF → s.v.toNat ≤ 0xFF →
    (∃ t u : State, exec .enc6 s = .next t ∧ exec .dec t = .next u ∧
      u.a = s.a ∧ u.v = s.v ∧ u.cp = false ∧ u.err = 0) ∧
    (s.c.toNat ≤ 0xFF →
      ∃ t u : State, exec .enc8 s = .next t ∧ exec .dec t = .next u ∧
        u.a = s.a ∧ u.v = s.v ∧ u.c = s.c ∧ u.cp = true ∧ u.err = 0)

/-- R125: a code that decodes, encoded again at its length, is the same in every cell but that nibble 2 bit 3 becomes
the length flag. -/
def Obligations.DecodeThenEncodeForcesTheLengthFlag : Prop :=
  ∀ (s t : State), exec .dec s = .next t → t.err = 0 →
    ∃ u : State, (if s.kl = 6 then exec .enc6 t else exec .enc8 t) = .next u ∧ u.err = 0 ∧ u.kl = s.kl ∧
      (∀ i : Fin 8, i ≠ 2 → u.k[i] = s.k[i]) ∧
      ∃ m n : Nibble, nibOf s.k[2] = some m ∧ nibOf u.k[2] = some n ∧
        n.toNat = m.toNat % 8 + if s.kl = 8 then 8 else 0

/-- R125: "ENC6 and ENC8 are injective on in-range patches". -/
def Obligations.EncodeIsInjective : Prop :=
  ∀ (s s' t t' : State),
    (exec .enc6 s = .next t → exec .enc6 s' = .next t' → t.err = 0 → t'.err = 0 →
      (∀ i : Fin 8, i < 6 → t.k[i] = t'.k[i]) → s.a = s'.a ∧ s.v = s'.v) ∧
    (exec .enc8 s = .next t → exec .enc8 s' = .next t' → t.err = 0 → t'.err = 0 → t.k = t'.k →
      s.a = s'.a ∧ s.v = s'.v ∧ s.c = s'.c)

/-! ### Cartridge reader

In this section and the next, `draws := s.draws + 1` is the model's own draw counter (log 7), and
`snap := some s.img` says which commands take the snapshot (log 8); both are the model's choices. -/

/-- R140, R141: with no header cached and an image of 16 bytes or more, HDR (where no header byte draws an I/O
failure) takes bytes 4, 5 and bit 2 of byte 6 into the header registers and writes nothing else but the error
registers (and the draw counter, log 7). -/
def Obligations.HdrParsesTheHeader : Prop :=
  ∀ s : State, s.SnapInv → s.hv = false → 16 ≤ s.img.len.toNat →
    s.ioFails 4 = false → s.ioFails 5 = false → s.ioFails 6 = false →
    ∃ (t : State) (b6 : Byte), exec .hdr s = .next t ∧ s.img.read 6 = some b6 ∧
      s.img.read 4 = some t.prgn ∧ s.img.read 5 = some t.chrn ∧ t.trn = b6.getLsbD 2 ∧
      t.poff.toNat = 16 + 512 * t.trn.toNat ∧
      t = { s with prgn := t.prgn, chrn := t.chrn, trn := t.trn, poff := t.poff, hv := true,
                   err := 0, einfo := 0, draws := s.draws + 1 }

/-- R141, R258: with a header cached HDR re-reads nothing and succeeds. `draws` is the model's choice (log 7). -/
def Obligations.HdrWithCachedHeaderReReadsNothing : Prop :=
  ∀ s : State, s.hv = true → exec .hdr s = .next { s with err := 0, einfo := 0, draws := s.draws + 1 }

/-- R223, R140: with no header cached and an image shorter than 16 bytes HDR and every command that parses the
header first fails with SHORT_HEADER, whatever else holds, and nothing is cached. `draws` is the model's choice (log
7). -/
def Obligations.ShortImageFailsEveryHeaderParse : Prop :=
  ∀ (s : State) (i : Instr), s.hv = false → s.img.len.toNat < 16 → (i = .hdr ∨ parsesHeaderFirst i = true) →
    exec i s = .next
      { s with err := 3, einfo := 0x0001, estk := s.estk ||| 0b01000#5, draws := s.draws + 1 }

/-- R140: RDP, RDC, RDR, RDPA, RDCA and SCANS begin with the parse that HDR does: where HDR fails they fail alike,
and where it succeeds they go on as with that header cached. `draws` is the model's choice (log 7). -/
def Obligations.ReaderCommandsParseTheHeaderFirst : Prop :=
  ∀ (s t : State) (i : Instr), s.hv = false → parsesHeaderFirst i = true → exec .hdr s = .next t →
    (t.hv = false → exec i s = .next t) ∧
    (t.hv = true → exec i s = exec i { t with err := s.err, einfo := s.einfo, draws := s.draws })

/-- R142, R65, R226: with the header cached, RDP of a bank and an offset in range delivers the byte at `PrgOff(BI,
BO)`, or, past the end of the image, sets `EOFF` and leaves `D`. `draws` and `snap` are the model's choices (logs 7,
8). -/
def Obligations.RdpReadsThePrgBank : Prop :=
  ∀ s : State, s.SnapInv → s.hv = true → s.bi.toNat < s.prgn.toNat → s.bo.toNat < 16384 →
    s.ioFails (s.poff.toNat + 16384 * s.bi.toNat + s.bo.toNat) = false →
    ∃ t : State, exec .rdp s = .next t ∧
      t = { s with d := t.d, eoff := t.eoff, err := 0, einfo := 0, snap := some s.img, draws := s.draws + 1 } ∧
      (∀ b, s.img.read (s.poff.toNat + 16384 * s.bi.toNat + s.bo.toNat) = some b → t.d = b ∧ t.eoff = false) ∧
      (s.img.read (s.poff.toNat + 16384 * s.bi.toNat + s.bo.toNat) = none → t.d = s.d ∧ t.eoff = true)

/-- R143, R66, R226: likewise RDC at `ChrOff(BI, BO)`, behind the nominal PRG region. `draws` and `snap` are the
model's choices (logs 7, 8). -/
def Obligations.RdcReadsTheChrBank : Prop :=
  ∀ s : State, s.SnapInv → s.hv = true → s.bi.toNat < s.chrn.toNat → s.bo.toNat < 8192 →
    s.ioFails (s.poff.toNat + 16384 * s.prgn.toNat + 8192 * s.bi.toNat + s.bo.toNat) = false →
    ∃ t : State, exec .rdc s = .next t ∧
      t = { s with d := t.d, eoff := t.eoff, err := 0, einfo := 0, snap := some s.img, draws := s.draws + 1 } ∧
      (∀ b, s.img.read (s.poff.toNat + 16384 * s.prgn.toNat + 8192 * s.bi.toNat + s.bo.toNat) = some b →
        t.d = b ∧ t.eoff = false) ∧
      (s.img.read (s.poff.toNat + 16384 * s.prgn.toNat + 8192 * s.bi.toNat + s.bo.toNat) = none →
        t.d = s.d ∧ t.eoff = true)

/-- R144, R64: RDR delivers the byte at an index below `RL`, and at or past `RL` sets `EOFF`, leaves `D` and reads
nothing, even where the image has more bytes there. `draws` and `snap` are the model's choices (logs 7, 8). -/
def Obligations.RdrReadsThePrgRegion : Prop :=
  ∀ s : State, s.SnapInv → s.hv = true →
    (s.bo.toNat < min (16384 * s.prgn.toNat) (s.img.len.toNat - s.poff.toNat) →
      s.ioFails (s.poff.toNat + s.bo.toNat) = false →
      ∃ b, s.img.read (s.poff.toNat + s.bo.toNat) = some b ∧
        exec .rdr s = .next { s with d := b, eoff := false, err := 0, einfo := 0, snap := some s.img,
                                     draws := s.draws + 1 }) ∧
    (min (16384 * s.prgn.toNat) (s.img.len.toNat - s.poff.toNat) ≤ s.bo.toNat →
      exec .rdr s = .next { s with eoff := true, err := 0, einfo := 0, draws := s.draws + 1 })

/-- R145, R146, R68, R148: with the header cached and a legal address in `A`, RDPA and RDCA end as RDP and RDC with
`BO` at the offset `BANKOFF` gives for the region and the address, but leave `BO`; under every strategy the offset lies
inside the bank, and under the default one it is the address modulo the bank size. That a strategy is a list of its
differences from the default, reduced modulo the bank size, is the model's choice (log 6). -/
def Obligations.AddressedReadsUseTheBankOffset : Prop :=
  ∀ s : State, s.hv = true → 0x8000 ≤ s.a.toNat → s.a.toNat ≤ 0xFFFF →
    bankOff s.params.bankOff .prg (s.a.setWidth 16) < 16384 ∧
    bankOff s.params.bankOff .chr (s.a.setWidth 16) < 8192 ∧
    (s.params.bankOff = [] →
      bankOff s.params.bankOff .prg (s.a.setWidth 16) = s.a.toNat % 16384 ∧
      bankOff s.params.bankOff .chr (s.a.setWidth 16) = s.a.toNat % 8192) ∧
    (∃ t : State,
      exec .rdp { s with bo := BitVec.ofNat 32 (bankOff s.params.bankOff .prg (s.a.setWidth 16)) } = .next t ∧
      exec .rdpa s = .next { t with bo := s.bo }) ∧
    (∃ t : State,
      exec .rdc { s with bo := BitVec.ofNat 32 (bankOff s.params.bankOff .chr (s.a.setWidth 16)) } = .next t ∧
      exec .rdca s = .next { t with bo := s.bo })

/-- R145: RDPA with a legal address and bank delivers the byte of PRG bank `BI` at the bank-relative offset of `A`.
`draws` and `snap` are the model's choices (logs 7, 8). -/
def Obligations.RdpaReadsTheByteAtTheAddress : Prop :=
  ∀ s : State, s.SnapInv → s.hv = true → 0x8000 ≤ s.a.toNat → s.a.toNat ≤ 0xFFFF → s.bi.toNat < s.prgn.toNat →
    s.ioFails (s.poff.toNat + 16384 * s.bi.toNat + bankOff s.params.bankOff .prg (s.a.setWidth 16)) = false →
    ∃ t : State, exec .rdpa s = .next t ∧
      t = { s with d := t.d, eoff := t.eoff, err := 0, einfo := 0, snap := some s.img, draws := s.draws + 1 } ∧
      (∀ b, s.img.read (s.poff.toNat + 16384 * s.bi.toNat + bankOff s.params.bankOff .prg (s.a.setWidth 16)) = some b →
        t.d = b ∧ t.eoff = false) ∧
      (s.img.read (s.poff.toNat + 16384 * s.bi.toNat + bankOff s.params.bankOff .prg (s.a.setWidth 16)) = none →
        t.d = s.d ∧ t.eoff = true)

/-- R146: RDCA with a legal address and bank delivers the byte of CHR bank `BI` at the bank-relative offset of `A`.
`draws` and `snap` are the model's choices (logs 7, 8). -/
def Obligations.RdcaReadsTheByteAtTheAddress : Prop :=
  ∀ s : State, s.SnapInv → s.hv = true → 0x8000 ≤ s.a.toNat → s.a.toNat ≤ 0xFFFF → s.bi.toNat < s.chrn.toNat →
    s.ioFails (s.poff.toNat + 16384 * s.prgn.toNat + 8192 * s.bi.toNat +
      bankOff s.params.bankOff .chr (s.a.setWidth 16)) = false →
    ∃ t : State, exec .rdca s = .next t ∧
      t = { s with d := t.d, eoff := t.eoff, err := 0, einfo := 0, snap := some s.img, draws := s.draws + 1 } ∧
      (∀ b, s.img.read (s.poff.toNat + 16384 * s.prgn.toNat + 8192 * s.bi.toNat +
          bankOff s.params.bankOff .chr (s.a.setWidth 16)) = some b → t.d = b ∧ t.eoff = false) ∧
      (s.img.read (s.poff.toNat + 16384 * s.prgn.toNat + 8192 * s.bi.toNat +
          bankOff s.params.bankOff .chr (s.a.setWidth 16)) = none → t.d = s.d ∧ t.eoff = true)

/-- R223, R224, R228: with the header cached, RDP and RDC check the bank index, then the offset, and report
`min(BI, 255)` as the index; nothing but the error registers changes (and the draw counter, log 7). -/
def Obligations.BankReadsCheckBankThenOffset : Prop :=
  ∀ s : State, s.hv = true →
    (s.prgn.toNat ≤ s.bi.toNat →
      exec .rdp s = .next { s with err := 3, einfo := BitVec.ofNat 32 (min s.bi.toNat 255 * 256 + 2),
                                   estk := s.estk ||| 0b01000#5, draws := s.draws + 1 }) ∧
    (s.bi.toNat < s.prgn.toNat → 16384 ≤ s.bo.toNat →
      exec .rdp s = .next { s with err := 4, einfo := 0x0005, estk := s.estk ||| 0b10000#5, draws := s.draws + 1 }) ∧
    (s.chrn.toNat ≤ s.bi.toNat →
      exec .rdc s = .next { s with err := 3, einfo := BitVec.ofNat 32 (min s.bi.toNat 255 * 256 + 2),
                                   estk := s.estk ||| 0b01000#5, draws := s.draws + 1 }) ∧
    (s.bi.toNat < s.chrn.toNat → 8192 ≤ s.bo.toNat →
      exec .rdc s = .next { s with err := 4, einfo := 0x0005, estk := s.estk ||| 0b10000#5, draws := s.draws + 1 })

/-- R222, R223, R228: with the header cached, RDPA and RDCA check the address, then the bank index. `draws` is the
model's choice (log 7). -/
def Obligations.AddressedReadsCheckAddressThenBank : Prop :=
  ∀ s : State, s.hv = true →
    ((s.a.toNat < 0x8000 ∨ 0xFFFF < s.a.toNat) →
      exec .rdpa s = .next { s with err := 2, einfo := 0x0001, estk := s.estk ||| 0b00100#5, draws := s.draws + 1 } ∧
      exec .rdca s = .next { s with err := 2, einfo := 0x0001, estk := s.estk ||| 0b00100#5, draws := s.draws + 1 }) ∧
    (0x8000 ≤ s.a.toNat → s.a.toNat ≤ 0xFFFF → s.prgn.toNat ≤ s.bi.toNat →
      exec .rdpa s = .next { s with err := 3, einfo := BitVec.ofNat 32 (min s.bi.toNat 255 * 256 + 2),
                                    estk := s.estk ||| 0b01000#5, draws := s.draws + 1 }) ∧
    (0x8000 ≤ s.a.toNat → s.a.toNat ≤ 0xFFFF → s.chrn.toNat ≤ s.bi.toNat →
      exec .rdca s = .next { s with err := 3, einfo := BitVec.ofNat 32 (min s.bi.toNat 255 * 256 + 2),
                                    estk := s.estk ||| 0b01000#5, draws := s.draws + 1 })

/-- R148: RDP at `(i, off)` and RDR at `16384 * i + off` address the same byte: they leave the same `D` and `EOFF`. -/
def Obligations.BankAndRegionReadsAgree : Prop :=
  ∀ (s t u : State) (i off : Nat), s.SnapInv → s.hv = true → s.params.imgIoFaults = false →
    i < s.prgn.toNat → off < 16384 →
    exec .rdp { s with bi := BitVec.ofNat 32 i, bo := BitVec.ofNat 32 off } = .next t →
    exec .rdr { s with bo := BitVec.ofNat 32 (16384 * i + off) } = .next u →
      t.d = u.d ∧ t.eoff = u.eoff ∧ t.err = 0 ∧ u.err = 0

/-- R61, R79, R223: which commands end with IO_FAILURE, and when; each then writes the error registers and nothing
else. With the header cached, HDR, RDP, RDC, RDR, RDPA, RDCA and SCANS do exactly when they read a payload byte whose
read draws a failure. Without it, on an image of 16 bytes or more, HDR does exactly when the read of header byte 4, 5
or 6 draws one, and every command that parses the header first then ends alike. SCANN in an active scan does exactly
when a byte it compares draws one. Where no draw fails, always so with the default parameter, no command does. The draw
and its counter are the model's choices (log 7), and so is the order in which SCANN compares (log 9). -/
def Obligations.IoFailureExactlyWhenDrawn : Prop :=
  (∀ (s : State) (i : Instr), s.hv = true → (i = .hdr ∨ parsesHeaderFirst i = true) →
    ∃ t : State, exec i s = .next t ∧
      (t.EndedInIoFailure ↔ ∃ off, s.payloadOffset i = some off ∧ s.ioFails off = true) ∧
      (t.EndedInIoFailure → t = s.ioFailed) ∧
      (∀ off, s.payloadOffset i = some off → s.ioFails off = false → t.err = 0)) ∧
  (∀ s : State, s.SnapInv → s.hv = false → 16 ≤ s.img.len.toNat →
    ∃ t : State, exec .hdr s = .next t ∧
      (t.EndedInIoFailure ↔ s.ioFails 4 = true ∨ s.ioFails 5 = true ∨ s.ioFails 6 = true) ∧
      (t.EndedInIoFailure →
        t = s.ioFailed ∧ ∀ i, parsesHeaderFirst i = true → exec i s = .next s.ioFailed)) ∧
  (∀ s : State, s.SnapInv → s.ScanInv → s.ss = .active →
    ∃ t : State, exec .scann s = .next t ∧
      (t.EndedInIoFailure ↔ ∃ j h k, s.Examines j h k ∧ s.ioFails (s.poff.toNat + h + k) = true) ∧
      (t.EndedInIoFailure → t = s.ioFailed)) ∧
  (∀ (s t : State) (i : Instr), s.params.imgIoFaults = false ∨ s.NoIoFailure → opcode? i ≠ none →
    exec i s = .next t → ¬ t.EndedInIoFailure)

/-! ### Pattern scanner -/

/-- R67, R167: a candidate address is the wrapped and rebiased sum, it lies in the CPU window, and only the offset
modulo 32768 matters. -/
def Obligations.CandidateIsWrappedAndRebiased : Prop :=
  ∀ (h : Nat) (po po' : Word),
    (cand h po).toNat = (h + po.toNat) % 32768 + 0x8000 ∧
    (((cand h po).toNat : Int) - 0x8000 = ((h : Int) + po.toInt) % 32768) ∧
    0x8000 ≤ (cand h po).toNat ∧ (cand h po).toNat ≤ 0xFFFF ∧
    (po.toNat % 32768 = po'.toNat % 32768 → cand h po = cand h po')

/-- R162: with the header cached and a legal pattern list, SCANS starts a scan from the beginning, whatever scan
existed, and changes nothing else. `draws` is the model's choice (log 7). -/
def Obligations.ScansStartsTheScan : Prop :=
  ∀ s : State, s.hv = true → s.np.toNat ≤ 8 →
    (∀ j, j < s.np.toNat → 1 ≤ (s.slotAt j).plen.toNat ∧ (s.slotAt j).plen.toNat ≤ 8) →
    exec .scans s = .next { s with ss := .active, sj := 0, sp := 0, fnd := false, err := 0, einfo := 0,
                                   draws := s.draws + 1 }

/-- R162, R224: SCANS refuses `NP` above 8, then the lowest active slot with an illegal length; the scan state
stays. `draws` is the model's choice (log 7). -/
def Obligations.ScansRefusesAnIllegalList : Prop :=
  ∀ s : State, s.hv = true →
    (8 < s.np.toNat →
      exec .scans s = .next { s with err := 4, einfo := BitVec.ofNat 32 (s.np.toNat * 256 + 6),
                                     estk := s.estk ||| 0b10000#5, draws := s.draws + 1 }) ∧
    (∀ j, s.np.toNat ≤ 8 → j < s.np.toNat →
      ((s.slotAt j).plen.toNat = 0 ∨ 8 < (s.slotAt j).plen.toNat) →
      (∀ i, i < j → 1 ≤ (s.slotAt i).plen.toNat ∧ (s.slotAt i).plen.toNat ≤ 8) →
      exec .scans s = .next { s with err := 4, einfo := BitVec.ofNat 32 (j * 256 + 3),
                                     estk := s.estk ||| 0b10000#5, draws := s.draws + 1 })

/-- R163: an active scan whose first pattern with an occurrence from its search position on is `j`, least at `h`,
yields that hit: `A`, `HL`, `PI`, `FND`, `SJ`, `SP`, and nothing else of the spec's registers but the error
registers. `draws` and `snap` are the model's choices (logs 7, 8). -/
def Obligations.ScannReportsTheFirstHit : Prop :=
  ∀ (s : State) (j h : Nat), s.SnapInv → s.NoIoFailure → s.ScanInv → s.ss = .active →
    s.sj.toNat ≤ j → j < s.np.toNat → s.searchStart j ≤ h → s.occurs j h = true →
    (∀ x, s.searchStart j ≤ x → x < h → s.occurs j x = false) →
    (∀ i x, s.sj.toNat ≤ i → i < j → s.searchStart i ≤ x → s.occurs i x = false) →
    ∃ t : State, exec .scann s = .next t ∧
      t = { s with a := cand h (s.slotAt j).po, hl := t.hl, pi := t.pi, fnd := true, sj := t.sj, sp := t.sp,
                   err := 0, einfo := 0, snap := some s.img, draws := s.draws + 1 } ∧
      t.hl.toNat = h ∧ t.pi.toNat = j ∧ t.sj.toNat = j ∧
      t.sp.toNat = h + (match s.params.scanStep with | .matchLength => (s.slotAt j).plen.toNat | .one => 1)

/-- R163: an active scan with no further occurrence ends: `SS` DONE, `SJ` = `NP`, `SP` = 0, `FND` = 0; `A`, `HL`,
`PI` keep the last candidate. `draws` and `snap` are the model's choices (logs 7, 8). -/
def Obligations.ScannReportsExhaustion : Prop :=
  ∀ s : State, s.SnapInv → s.NoIoFailure → s.ScanInv → s.ss = .active →
    (∀ i x, s.sj.toNat ≤ i → i < s.np.toNat → s.searchStart i ≤ x → s.occurs i x = false) →
    exec .scann s = .next { s with ss := .done, sj := s.np, sp := 0, fnd := false, err := 0, einfo := 0,
                                   snap := some s.img, draws := s.draws + 1 }

/-- R163: an exhausted scan stays exhausted, and without a scan SCANN fails with NO_SCAN and does not parse the
header. `draws` is the model's choice (log 7). -/
def Obligations.ScannWithoutActiveScan : Prop :=
  ∀ s : State,
    (s.ss = .done → exec .scann s = .next { s with fnd := false, err := 0, einfo := 0, draws := s.draws + 1 }) ∧
    (s.ss = .idle → exec .scann s = .next { s with err := 4, einfo := 0x0004, estk := s.estk ||| 0b10000#5,
                                                   draws := s.draws + 1 })

/-- R165 c, R164: after a SCANS the successive SCANNs yield exactly the sequence of R164, in order, one element each. -/
def Obligations.ScannsYieldTheSequence : Prop :=
  ∀ (s t : State), s.SnapInv → s.params.imgIoFaults = false →
    exec .scans s = .next t → t.err = 0 → ∀ n, scannResults n t = t.scanSequence.take n

/-! ### Whole machine -/

/-- Every step keeps the invariant of the machine: canonical images (log 4), `SNAP` = `IMG` (R39), the header
registers (R27), the scan state (R165), the error registers (R31, R32, R225). -/
def Obligations.StepKeepsTheInvariant : Prop :=
  ∀ s t : State, s.Inv → step s = .next t → t.Inv

/-- The reset state has the invariant (R43, R251). The invariant's clause on the image rests on the empty image, which
is the model's choice (log 5). -/
def Obligations.ResetHasTheInvariant : Prop := State.reset.Inv

/-- R261, R184: every transaction has a next state. The second clause, that a legal script of any length runs to its
end, is the model's choice: it is about the script itself (log 1), whose images are canonical (log 4), and past its end
about the idle step (log 13). -/
def Obligations.EveryTransactionCompletes : Prop :=
  (∀ (i : Instr) (s : State), ∃ t : State, exec i s = .next t) ∧
  (∀ (n : Nat) (s : State), s.ScriptLegal → ∃ t : State, stepMany n s = some t ∧ t.script = s.script.drop n)

/-- R42, R60, R252: no instruction changes the image, its length or a parameter. -/
def Obligations.NoInstructionChangesImageOrParameters : Prop :=
  ∀ (i : Instr) (s t : State), exec i s = .next t → t.img = s.img ∧ t.params = s.params

/-- R27, R258: once `HV` is 1, no instruction but a reset changes a header register. -/
def Obligations.ParsedHeaderIsImmutable : Prop :=
  ∀ (i : Instr) (s t : State), s.hv = true → isReset i = false → exec i s = .next t →
    t.hv = true ∧ t.prgn = s.prgn ∧ t.chrn = s.chrn ∧ t.trn = s.trn ∧ t.poff = s.poff

/-- R231: no instruction but a reset clears a sticky bit, an instruction sets only the bit of the error it ends in, and
every error entry has set its bit. -/
def Obligations.StickyBitsAreClearedOnlyByReset : Prop :=
  ∀ (i : Instr) (s t : State) (n : Nat), isReset i = false → exec i s = .next t →
    (s.estk.getLsbD n = true → t.estk.getLsbD n = true) ∧
    (s.estk.getLsbD n = false → t.estk.getLsbD n = true → t.err.toNat = n) ∧
    (reportsOutcome i = true → t.err ≠ 0 → t.estk.getLsbD t.err.toNat = true)

/-- R229, R140: a failing command writes the error registers and nothing else but a header just parsed: where it
parsed none the header registers stay, and where it did they are those that HDR parses. A successful one leaves `EINFO`
0 and, unless it is RST, `ESTK` as it was. `draws` is the model's choice (log 7). -/
def Obligations.FailingCommandWritesOnlyErrorRegisters : Prop :=
  ∀ (i : Instr) (s t : State), opcode? i ≠ none → exec i s = .next t →
    (t.err ≠ 0 →
      t = { s with err := t.err, einfo := t.einfo, estk := s.estk ||| (1#5 <<< t.err.toNat),
                   prgn := t.prgn, chrn := t.chrn, trn := t.trn, poff := t.poff, hv := t.hv,
                   draws := t.draws } ∧
      (s.hv = true → t.hv = true) ∧
      (t.hv = s.hv → t.prgn = s.prgn ∧ t.chrn = s.chrn ∧ t.trn = s.trn ∧ t.poff = s.poff) ∧
      (t.hv ≠ s.hv → ∃ u : State, exec .hdr s = .next u ∧ u.err = 0 ∧ u.hv = true ∧
        t.prgn = u.prgn ∧ t.chrn = u.chrn ∧ t.trn = u.trn ∧ t.poff = u.poff)) ∧
    (t.err = 0 → t.einfo = 0 ∧ (i ≠ .rst → t.estk = s.estk))

/-- Images in canonical form that read alike are equal data (log 4, the model's choice of representation). -/
def Obligations.CanonicalImagesAreDeterminedByTheirBytes : Prop :=
  ∀ i j : Image, i.wf = true → j.wf = true → i.len = j.len →
    (∀ off, off < i.len.toNat → i.read off = j.read off) → i = j

/-! ### Host sequences -/

/-- R192, R124: DECODE of the code of a legal patch returns the patch. -/
def Obligations.DecodeSequenceReturnsThePatch : Prop :=
  ∀ (s : State) (p : Patch), 0x8000 ≤ p.address.toNat → ∃ t : State, decodeCode (codeOfPatch p) s = .ok (p, t)

/-- R191, R192: DECODE of a string of another length than 6 or 8 fails with BAD_LENGTH and the length, capped at
15. -/
def Obligations.DecodeSequenceFailsOnLength : Prop :=
  ∀ (s : State) (code : Code), code.length ≠ 6 → code.length ≠ 8 →
    decodeCode code s = .error (.typed 1 (BitVec.ofNat 32 (min code.length 15 * 256 + 1)))

/-- R193: REENCODE keeps the address and takes the new value and the new compare or none, whatever the code had. -/
def Obligations.ReencodeSequenceRebuildsThePatch : Prop :=
  ∀ (s : State) (p : Patch) (v : Byte) (c : Option Byte), 0x8000 ≤ p.address.toNat →
    ∃ t : State, reencode (codeOfPatch p) (v.setWidth 32) (c.map (·.setWidth 32)) s =
      .ok (codeOfPatch ⟨p.address, v, c⟩, t)

/-- R194: GENRANDOM cannot fail on a drawn patch in range and gives the patch's code. -/
def Obligations.GenRandomSequenceGivesTheCode : Prop :=
  ∀ (s : State) (drawn : Patch), 0x8000 ≤ drawn.address.toNat →
    ∃ t : State, genRandom drawn s = .ok (codeOfPatch drawn, t)

/-- R197: the codes SAFER returns are exactly those with the address and value of its input and, as compare, a byte
that stands at the address's offset in a bank of either region before the end of the image; no code stands twice, and
there are at most `PRGN + CHRN`. The offset is BANKOFF's (R68; its form in the model is log 6), and the sequence as a
program with the set as a list is the model's choice (log 14). -/
def Obligations.SaferSequenceKeepsThePatch : Prop :=
  ∀ (s t : State) (code : Code) (codes : List Code), s.SnapInv → safer code s = .ok (codes, t) →
    ∃ (p : Patch) (u : State), decodeCode code s = .ok (p, u) ∧
      (∀ x, x ∈ codes ↔ ∃ b, x = codeOfPatch ⟨p.address, p.value, some b⟩ ∧
        ((∃ i, i < t.prgn.toNat ∧
            s.img.read (t.poff.toNat + 16384 * i + bankOff s.params.bankOff .prg p.address) = some b) ∨
          (∃ i, i < t.chrn.toNat ∧
            s.img.read (t.poff.toNat + 16384 * t.prgn.toNat + 8192 * i +
              bankOff s.params.bankOff .chr p.address) = some b))) ∧
      codes.Nodup ∧ codes.length ≤ t.prgn.toNat + t.chrn.toNat
end

