-- ==== Sys2Proof/Laws/State.lean ====
section
/-! SUPPORT. What each named update of the state leaves in each field: one lemma per field per update, true by rfl. -/

namespace Sys2Proof.Machine

open Sys2Proof

/-! ### State.raise -/

@[simp] theorem State.raise_a (s : State) (e : CmdError) : (s.raise e).a = s.a := rfl
@[simp] theorem State.raise_v (s : State) (e : CmdError) : (s.raise e).v = s.v := rfl
@[simp] theorem State.raise_c (s : State) (e : CmdError) : (s.raise e).c = s.c := rfl
@[simp] theorem State.raise_cp (s : State) (e : CmdError) : (s.raise e).cp = s.cp := rfl
@[simp] theorem State.raise_k (s : State) (e : CmdError) : (s.raise e).k = s.k := rfl
@[simp] theorem State.raise_kl (s : State) (e : CmdError) : (s.raise e).kl = s.kl := rfl
@[simp] theorem State.raise_bi (s : State) (e : CmdError) : (s.raise e).bi = s.bi := rfl
@[simp] theorem State.raise_bo (s : State) (e : CmdError) : (s.raise e).bo = s.bo := rfl
@[simp] theorem State.raise_d (s : State) (e : CmdError) : (s.raise e).d = s.d := rfl
@[simp] theorem State.raise_eoff (s : State) (e : CmdError) : (s.raise e).eoff = s.eoff := rfl
@[simp] theorem State.raise_prgn (s : State) (e : CmdError) : (s.raise e).prgn = s.prgn := rfl
@[simp] theorem State.raise_chrn (s : State) (e : CmdError) : (s.raise e).chrn = s.chrn := rfl
@[simp] theorem State.raise_trn (s : State) (e : CmdError) : (s.raise e).trn = s.trn := rfl
@[simp] theorem State.raise_poff (s : State) (e : CmdError) : (s.raise e).poff = s.poff := rfl
@[simp] theorem State.raise_hv (s : State) (e : CmdError) : (s.raise e).hv = s.hv := rfl
@[simp] theorem State.raise_slots (s : State) (e : CmdError) : (s.raise e).slots = s.slots := rfl
@[simp] theorem State.raise_np (s : State) (e : CmdError) : (s.raise e).np = s.np := rfl
@[simp] theorem State.raise_ss (s : State) (e : CmdError) : (s.raise e).ss = s.ss := rfl
@[simp] theorem State.raise_sj (s : State) (e : CmdError) : (s.raise e).sj = s.sj := rfl
@[simp] theorem State.raise_sp (s : State) (e : CmdError) : (s.raise e).sp = s.sp := rfl
@[simp] theorem State.raise_hl (s : State) (e : CmdError) : (s.raise e).hl = s.hl := rfl
@[simp] theorem State.raise_pi (s : State) (e : CmdError) : (s.raise e).pi = s.pi := rfl
@[simp] theorem State.raise_fnd (s : State) (e : CmdError) : (s.raise e).fnd = s.fnd := rfl
@[simp] theorem State.raise_err (s : State) (e : CmdError) : (s.raise e).err = errClass e := rfl
@[simp] theorem State.raise_einfo (s : State) (e : CmdError) : (s.raise e).einfo = errInfo e := rfl
@[simp] theorem State.raise_estk (s : State) (e : CmdError) : (s.raise e).estk = s.estk ||| errSticky e := rfl
@[simp] theorem State.raise_snap (s : State) (e : CmdError) : (s.raise e).snap = s.snap := rfl
@[simp] theorem State.raise_img (s : State) (e : CmdError) : (s.raise e).img = s.img := rfl
@[simp] theorem State.raise_params (s : State) (e : CmdError) : (s.raise e).params = s.params := rfl
@[simp] theorem State.raise_draws (s : State) (e : CmdError) : (s.raise e).draws = s.draws := rfl
@[simp] theorem State.raise_reply (s : State) (e : CmdError) : (s.raise e).reply = s.reply := rfl
@[simp] theorem State.raise_script (s : State) (e : CmdError) : (s.raise e).script = s.script := rfl

/-! ### State.succeed -/

@[simp] theorem State.succeed_a (s : State) : (s.succeed).a = s.a := rfl
@[simp] theorem State.succeed_v (s : State) : (s.succeed).v = s.v := rfl
@[simp] theorem State.succeed_c (s : State) : (s.succeed).c = s.c := rfl
@[simp] theorem State.succeed_cp (s : State) : (s.succeed).cp = s.cp := rfl
@[simp] theorem State.succeed_k (s : State) : (s.succeed).k = s.k := rfl
@[simp] theorem State.succeed_kl (s : State) : (s.succeed).kl = s.kl := rfl
@[simp] theorem State.succeed_bi (s : State) : (s.succeed).bi = s.bi := rfl
@[simp] theorem State.succeed_bo (s : State) : (s.succeed).bo = s.bo := rfl
@[simp] theorem State.succeed_d (s : State) : (s.succeed).d = s.d := rfl
@[simp] theorem State.succeed_eoff (s : State) : (s.succeed).eoff = s.eoff := rfl
@[simp] theorem State.succeed_prgn (s : State) : (s.succeed).prgn = s.prgn := rfl
@[simp] theorem State.succeed_chrn (s : State) : (s.succeed).chrn = s.chrn := rfl
@[simp] theorem State.succeed_trn (s : State) : (s.succeed).trn = s.trn := rfl
@[simp] theorem State.succeed_poff (s : State) : (s.succeed).poff = s.poff := rfl
@[simp] theorem State.succeed_hv (s : State) : (s.succeed).hv = s.hv := rfl
@[simp] theorem State.succeed_slots (s : State) : (s.succeed).slots = s.slots := rfl
@[simp] theorem State.succeed_np (s : State) : (s.succeed).np = s.np := rfl
@[simp] theorem State.succeed_ss (s : State) : (s.succeed).ss = s.ss := rfl
@[simp] theorem State.succeed_sj (s : State) : (s.succeed).sj = s.sj := rfl
@[simp] theorem State.succeed_sp (s : State) : (s.succeed).sp = s.sp := rfl
@[simp] theorem State.succeed_hl (s : State) : (s.succeed).hl = s.hl := rfl
@[simp] theorem State.succeed_pi (s : State) : (s.succeed).pi = s.pi := rfl
@[simp] theorem State.succeed_fnd (s : State) : (s.succeed).fnd = s.fnd := rfl
@[simp] theorem State.succeed_err (s : State) : (s.succeed).err = 0 := rfl
@[simp] theorem State.succeed_einfo (s : State) : (s.succeed).einfo = 0 := rfl
@[simp] theorem State.succeed_estk (s : State) : (s.succeed).estk = s.estk := rfl
@[simp] theorem State.succeed_snap (s : State) : (s.succeed).snap = s.snap := rfl
@[simp] theorem State.succeed_img (s : State) : (s.succeed).img = s.img := rfl
@[simp] theorem State.succeed_params (s : State) : (s.succeed).params = s.params := rfl
@[simp] theorem State.succeed_draws (s : State) : (s.succeed).draws = s.draws := rfl
@[simp] theorem State.succeed_reply (s : State) : (s.succeed).reply = s.reply := rfl
@[simp] theorem State.succeed_script (s : State) : (s.succeed).script = s.script := rfl

/-! ### State.nextDraw -/

@[simp] theorem State.nextDraw_a (s : State) : (s.nextDraw).a = s.a := rfl
@[simp] theorem State.nextDraw_v (s : State) : (s.nextDraw).v = s.v := rfl
@[simp] theorem State.nextDraw_c (s : State) : (s.nextDraw).c = s.c := rfl
@[simp] theorem State.nextDraw_cp (s : State) : (s.nextDraw).cp = s.cp := rfl
@[simp] theorem State.nextDraw_k (s : State) : (s.nextDraw).k = s.k := rfl
@[simp] theorem State.nextDraw_kl (s : State) : (s.nextDraw).kl = s.kl := rfl
@[simp] theorem State.nextDraw_bi (s : State) : (s.nextDraw).bi = s.bi := rfl
@[simp] theorem State.nextDraw_bo (s : State) : (s.nextDraw).bo = s.bo := rfl
@[simp] theorem State.nextDraw_d (s : State) : (s.nextDraw).d = s.d := rfl
@[simp] theorem State.nextDraw_eoff (s : State) : (s.nextDraw).eoff = s.eoff := rfl
@[simp] theorem State.nextDraw_prgn (s : State) : (s.nextDraw).prgn = s.prgn := rfl
@[simp] theorem State.nextDraw_chrn (s : State) : (s.nextDraw).chrn = s.chrn := rfl
@[simp] theorem State.nextDraw_trn (s : State) : (s.nextDraw).trn = s.trn := rfl
@[simp] theorem State.nextDraw_poff (s : State) : (s.nextDraw).poff = s.poff := rfl
@[simp] theorem State.nextDraw_hv (s : State) : (s.nextDraw).hv = s.hv := rfl
@[simp] theorem State.nextDraw_slots (s : State) : (s.nextDraw).slots = s.slots := rfl
@[simp] theorem State.nextDraw_np (s : State) : (s.nextDraw).np = s.np := rfl
@[simp] theorem State.nextDraw_ss (s : State) : (s.nextDraw).ss = s.ss := rfl
@[simp] theorem State.nextDraw_sj (s : State) : (s.nextDraw).sj = s.sj := rfl
@[simp] theorem State.nextDraw_sp (s : State) : (s.nextDraw).sp = s.sp := rfl
@[simp] theorem State.nextDraw_hl (s : State) : (s.nextDraw).hl = s.hl := rfl
@[simp] theorem State.nextDraw_pi (s : State) : (s.nextDraw).pi = s.pi := rfl
@[simp] theorem State.nextDraw_fnd (s : State) : (s.nextDraw).fnd = s.fnd := rfl
@[simp] theorem State.nextDraw_err (s : State) : (s.nextDraw).err = s.err := rfl
@[simp] theorem State.nextDraw_einfo (s : State) : (s.nextDraw).einfo = s.einfo := rfl
@[simp] theorem State.nextDraw_estk (s : State) : (s.nextDraw).estk = s.estk := rfl
@[simp] theorem State.nextDraw_snap (s : State) : (s.nextDraw).snap = s.snap := rfl
@[simp] theorem State.nextDraw_img (s : State) : (s.nextDraw).img = s.img := rfl
@[simp] theorem State.nextDraw_params (s : State) : (s.nextDraw).params = s.params := rfl
@[simp] theorem State.nextDraw_draws (s : State) : (s.nextDraw).draws = s.draws + 1 := rfl
@[simp] theorem State.nextDraw_reply (s : State) : (s.nextDraw).reply = s.reply := rfl
@[simp] theorem State.nextDraw_script (s : State) : (s.nextDraw).script = s.script := rfl

/-! ### State.fillSnap -/

@[simp] theorem State.fillSnap_a (s : State) : (s.fillSnap).a = s.a := rfl
@[simp] theorem State.fillSnap_v (s : State) : (s.fillSnap).v = s.v := rfl
@[simp] theorem State.fillSnap_c (s : State) : (s.fillSnap).c = s.c := rfl
@[simp] theorem State.fillSnap_cp (s : State) : (s.fillSnap).cp = s.cp := rfl
@[simp] theorem State.fillSnap_k (s : State) : (s.fillSnap).k = s.k := rfl
@[simp] theorem State.fillSnap_kl (s : State) : (s.fillSnap).kl = s.kl := rfl
@[simp] theorem State.fillSnap_bi (s : State) : (s.fillSnap).bi = s.bi := rfl
@[simp] theorem State.fillSnap_bo (s : State) : (s.fillSnap).bo = s.bo := rfl
@[simp] theorem State.fillSnap_d (s : State) : (s.fillSnap).d = s.d := rfl
@[simp] theorem State.fillSnap_eoff (s : State) : (s.fillSnap).eoff = s.eoff := rfl
@[simp] theorem State.fillSnap_prgn (s : State) : (s.fillSnap).prgn = s.prgn := rfl
@[simp] theorem State.fillSnap_chrn (s : State) : (s.fillSnap).chrn = s.chrn := rfl
@[simp] theorem State.fillSnap_trn (s : State) : (s.fillSnap).trn = s.trn := rfl
@[simp] theorem State.fillSnap_poff (s : State) : (s.fillSnap).poff = s.poff := rfl
@[simp] theorem State.fillSnap_hv (s : State) : (s.fillSnap).hv = s.hv := rfl
@[simp] theorem State.fillSnap_slots (s : State) : (s.fillSnap).slots = s.slots := rfl
@[simp] theorem State.fillSnap_np (s : State) : (s.fillSnap).np = s.np := rfl
@[simp] theorem State.fillSnap_ss (s : State) : (s.fillSnap).ss = s.ss := rfl
@[simp] theorem State.fillSnap_sj (s : State) : (s.fillSnap).sj = s.sj := rfl
@[simp] theorem State.fillSnap_sp (s : State) : (s.fillSnap).sp = s.sp := rfl
@[simp] theorem State.fillSnap_hl (s : State) : (s.fillSnap).hl = s.hl := rfl
@[simp] theorem State.fillSnap_pi (s : State) : (s.fillSnap).pi = s.pi := rfl
@[simp] theorem State.fillSnap_fnd (s : State) : (s.fillSnap).fnd = s.fnd := rfl
@[simp] theorem State.fillSnap_err (s : State) : (s.fillSnap).err = s.err := rfl
@[simp] theorem State.fillSnap_einfo (s : State) : (s.fillSnap).einfo = s.einfo := rfl
@[simp] theorem State.fillSnap_estk (s : State) : (s.fillSnap).estk = s.estk := rfl
@[simp] theorem State.fillSnap_snap (s : State) : (s.fillSnap).snap = some (s.snap.getD s.img) := rfl
@[simp] theorem State.fillSnap_img (s : State) : (s.fillSnap).img = s.img := rfl
@[simp] theorem State.fillSnap_params (s : State) : (s.fillSnap).params = s.params := rfl
@[simp] theorem State.fillSnap_draws (s : State) : (s.fillSnap).draws = s.draws := rfl
@[simp] theorem State.fillSnap_reply (s : State) : (s.fillSnap).reply = s.reply := rfl
@[simp] theorem State.fillSnap_script (s : State) : (s.fillSnap).script = s.script := rfl

/-! ### State.takeEvent -/

@[simp] theorem State.takeEvent_a (s : State) (rest : List HostEvent) : (s.takeEvent rest).a = s.a := rfl
@[simp] theorem State.takeEvent_v (s : State) (rest : List HostEvent) : (s.takeEvent rest).v = s.v := rfl
@[simp] theorem State.takeEvent_c (s : State) (rest : List HostEvent) : (s.takeEvent rest).c = s.c := rfl
@[simp] theorem State.takeEvent_cp (s : State) (rest : List HostEvent) : (s.takeEvent rest).cp = s.cp := rfl
@[simp] theorem State.takeEvent_k (s : State) (rest : List HostEvent) : (s.takeEvent rest).k = s.k := rfl
@[simp] theorem State.takeEvent_kl (s : State) (rest : List HostEvent) : (s.takeEvent rest).kl = s.kl := rfl
@[simp] theorem State.takeEvent_bi (s : State) (rest : List HostEvent) : (s.takeEvent rest).bi = s.bi := rfl
@[simp] theorem State.takeEvent_bo (s : State) (rest : List HostEvent) : (s.takeEvent rest).bo = s.bo := rfl
@[simp] theorem State.takeEvent_d (s : State) (rest : List HostEvent) : (s.takeEvent rest).d = s.d := rfl
@[simp] theorem State.takeEvent_eoff (s : State) (rest : List HostEvent) : (s.takeEvent rest).eoff = s.eoff := rfl
@[simp] theorem State.takeEvent_prgn (s : State) (rest : List HostEvent) : (s.takeEvent rest).prgn = s.prgn := rfl
@[simp] theorem State.takeEvent_chrn (s : State) (rest : List HostEvent) : (s.takeEvent rest).chrn = s.chrn := rfl
@[simp] theorem State.takeEvent_trn (s : State) (rest : List HostEvent) : (s.takeEvent rest).trn = s.trn := rfl
@[simp] theorem State.takeEvent_poff (s : State) (rest : List HostEvent) : (s.takeEvent rest).poff = s.poff := rfl
@[simp] theorem State.takeEvent_hv (s : State) (rest : List HostEvent) : (s.takeEvent rest).hv = s.hv := rfl
@[simp] theorem State.takeEvent_slots (s : State) (rest : List HostEvent) : (s.takeEvent rest).slots = s.slots := rfl
@[simp] theorem State.takeEvent_np (s : State) (rest : List HostEvent) : (s.takeEvent rest).np = s.np := rfl
@[simp] theorem State.takeEvent_ss (s : State) (rest : List HostEvent) : (s.takeEvent rest).ss = s.ss := rfl
@[simp] theorem State.takeEvent_sj (s : State) (rest : List HostEvent) : (s.takeEvent rest).sj = s.sj := rfl
@[simp] theorem State.takeEvent_sp (s : State) (rest : List HostEvent) : (s.takeEvent rest).sp = s.sp := rfl
@[simp] theorem State.takeEvent_hl (s : State) (rest : List HostEvent) : (s.takeEvent rest).hl = s.hl := rfl
@[simp] theorem State.takeEvent_pi (s : State) (rest : List HostEvent) : (s.takeEvent rest).pi = s.pi := rfl
@[simp] theorem State.takeEvent_fnd (s : State) (rest : List HostEvent) : (s.takeEvent rest).fnd = s.fnd := rfl
@[simp] theorem State.takeEvent_err (s : State) (rest : List HostEvent) : (s.takeEvent rest).err = s.err := rfl
@[simp] theorem State.takeEvent_einfo (s : State) (rest : List HostEvent) : (s.takeEvent rest).einfo = s.einfo := rfl
@[simp] theorem State.takeEvent_estk (s : State) (rest : List HostEvent) : (s.takeEvent rest).estk = s.estk := rfl
@[simp] theorem State.takeEvent_snap (s : State) (rest : List HostEvent) : (s.takeEvent rest).snap = s.snap := rfl
@[simp] theorem State.takeEvent_img (s : State) (rest : List HostEvent) : (s.takeEvent rest).img = s.img := rfl
@[simp] theorem State.takeEvent_params (s : State) (rest : List HostEvent) : (s.takeEvent rest).params = s.params := rfl
@[simp] theorem State.takeEvent_draws (s : State) (rest : List HostEvent) : (s.takeEvent rest).draws = s.draws := rfl
@[simp] theorem State.takeEvent_reply (s : State) (rest : List HostEvent) : (s.takeEvent rest).reply = none := rfl
@[simp] theorem State.takeEvent_script (s : State) (rest : List HostEvent) : (s.takeEvent rest).script = rest := rfl

/-! ### State.setSlot -/

@[simp] theorem State.setSlot_a (s : State) (j : Fin 8) (p : Slot) : (s.setSlot j p).a = s.a := rfl
@[simp] theorem State.setSlot_v (s : State) (j : Fin 8) (p : Slot) : (s.setSlot j p).v = s.v := rfl
@[simp] theorem State.setSlot_c (s : State) (j : Fin 8) (p : Slot) : (s.setSlot j p).c = s.c := rfl
@[simp] theorem State.setSlot_cp (s : State) (j : Fin 8) (p : Slot) : (s.setSlot j p).cp = s.cp := rfl
@[simp] theorem State.setSlot_k (s : State) (j : Fin 8) (p : Slot) : (s.setSlot j p).k = s.k := rfl
@[simp] theorem State.setSlot_kl (s : State) (j : Fin 8) (p : Slot) : (s.setSlot j p).kl = s.kl := rfl
@[simp] theorem State.setSlot_bi (s : State) (j : Fin 8) (p : Slot) : (s.setSlot j p).bi = s.bi := rfl
@[simp] theorem State.setSlot_bo (s : State) (j : Fin 8) (p : Slot) : (s.setSlot j p).bo = s.bo := rfl
@[simp] theorem State.setSlot_d (s : State) (j : Fin 8) (p : Slot) : (s.setSlot j p).d = s.d := rfl
@[simp] theorem State.setSlot_eoff (s : State) (j : Fin 8) (p : Slot) : (s.setSlot j p).eoff = s.eoff := rfl
@[simp] theorem State.setSlot_prgn (s : State) (j : Fin 8) (p : Slot) : (s.setSlot j p).prgn = s.prgn := rfl
@[simp] theorem State.setSlot_chrn (s : State) (j : Fin 8) (p : Slot) : (s.setSlot j p).chrn = s.chrn := rfl
@[simp] theorem State.setSlot_trn (s : State) (j : Fin 8) (p : Slot) : (s.setSlot j p).trn = s.trn := rfl
@[simp] theorem State.setSlot_poff (s : State) (j : Fin 8) (p : Slot) : (s.setSlot j p).poff = s.poff := rfl
@[simp] theorem State.setSlot_hv (s : State) (j : Fin 8) (p : Slot) : (s.setSlot j p).hv = s.hv := rfl
@[simp] theorem State.setSlot_slots (s : State) (j : Fin 8) (p : Slot) : (s.setSlot j p).slots = s.slots.set j p := rfl
@[simp] theorem State.setSlot_np (s : State) (j : Fin 8) (p : Slot) : (s.setSlot j p).np = s.np := rfl
@[simp] theorem State.setSlot_ss (s : State) (j : Fin 8) (p : Slot) : (s.setSlot j p).ss = s.ss := rfl
@[simp] theorem State.setSlot_sj (s : State) (j : Fin 8) (p : Slot) : (s.setSlot j p).sj = s.sj := rfl
@[simp] theorem State.setSlot_sp (s : State) (j : Fin 8) (p : Slot) : (s.setSlot j p).sp = s.sp := rfl
@[simp] theorem State.setSlot_hl (s : State) (j : Fin 8) (p : Slot) : (s.setSlot j p).hl = s.hl := rfl
@[simp] theorem State.setSlot_pi (s : State) (j : Fin 8) (p : Slot) : (s.setSlot j p).pi = s.pi := rfl
@[simp] theorem State.setSlot_fnd (s : State) (j : Fin 8) (p : Slot) : (s.setSlot j p).fnd = s.fnd := rfl
@[simp] theorem State.setSlot_err (s : State) (j : Fin 8) (p : Slot) : (s.setSlot j p).err = s.err := rfl
@[simp] theorem State.setSlot_einfo (s : State) (j : Fin 8) (p : Slot) : (s.setSlot j p).einfo = s.einfo := rfl
@[simp] theorem State.setSlot_estk (s : State) (j : Fin 8) (p : Slot) : (s.setSlot j p).estk = s.estk := rfl
@[simp] theorem State.setSlot_snap (s : State) (j : Fin 8) (p : Slot) : (s.setSlot j p).snap = s.snap := rfl
@[simp] theorem State.setSlot_img (s : State) (j : Fin 8) (p : Slot) : (s.setSlot j p).img = s.img := rfl
@[simp] theorem State.setSlot_params (s : State) (j : Fin 8) (p : Slot) : (s.setSlot j p).params = s.params := rfl
@[simp] theorem State.setSlot_draws (s : State) (j : Fin 8) (p : Slot) : (s.setSlot j p).draws = s.draws := rfl
@[simp] theorem State.setSlot_reply (s : State) (j : Fin 8) (p : Slot) : (s.setSlot j p).reply = s.reply := rfl
@[simp] theorem State.setSlot_script (s : State) (j : Fin 8) (p : Slot) : (s.setSlot j p).script = s.script := rfl

/-! ### State.storeCode -/

@[simp] theorem State.storeCode_a (s : State) (chars : List Byte) : (s.storeCode chars).a = s.a := rfl
@[simp] theorem State.storeCode_v (s : State) (chars : List Byte) : (s.storeCode chars).v = s.v := rfl
@[simp] theorem State.storeCode_c (s : State) (chars : List Byte) : (s.storeCode chars).c = s.c := rfl
@[simp] theorem State.storeCode_cp (s : State) (chars : List Byte) : (s.storeCode chars).cp = s.cp := rfl
@[simp] theorem State.storeCode_k (s : State) (chars : List Byte) : (s.storeCode chars).k = storeChars chars 0 s.k := rfl
@[simp] theorem State.storeCode_kl (s : State) (chars : List Byte) : (s.storeCode chars).kl = BitVec.ofNat 4 chars.length := rfl
@[simp] theorem State.storeCode_bi (s : State) (chars : List Byte) : (s.storeCode chars).bi = s.bi := rfl
@[simp] theorem State.storeCode_bo (s : State) (chars : List Byte) : (s.storeCode chars).bo = s.bo := rfl
@[simp] theorem State.storeCode_d (s : State) (chars : List Byte) : (s.storeCode chars).d = s.d := rfl
@[simp] theorem State.storeCode_eoff (s : State) (chars : List Byte) : (s.storeCode chars).eoff = s.eoff := rfl
@[simp] theorem State.storeCode_prgn (s : State) (chars : List Byte) : (s.storeCode chars).prgn = s.prgn := rfl
@[simp] theorem State.storeCode_chrn (s : State) (chars : List Byte) : (s.storeCode chars).chrn = s.chrn := rfl
@[simp] theorem State.storeCode_trn (s : State) (chars : List Byte) : (s.storeCode chars).trn = s.trn := rfl
@[simp] theorem State.storeCode_poff (s : State) (chars : List Byte) : (s.storeCode chars).poff = s.poff := rfl
@[simp] theorem State.storeCode_hv (s : State) (chars : List Byte) : (s.storeCode chars).hv = s.hv := rfl
@[simp] theorem State.storeCode_slots (s : State) (chars : List Byte) : (s.storeCode chars).slots = s.slots := rfl
@[simp] theorem State.storeCode_np (s : State) (chars : List Byte) : (s.storeCode chars).np = s.np := rfl
@[simp] theorem State.storeCode_ss (s : State) (chars : List Byte) : (s.storeCode chars).ss = s.ss := rfl
@[simp] theorem State.storeCode_sj (s : State) (chars : List Byte) : (s.storeCode chars).sj = s.sj := rfl
@[simp] theorem State.storeCode_sp (s : State) (chars : List Byte) : (s.storeCode chars).sp = s.sp := rfl
@[simp] theorem State.storeCode_hl (s : State) (chars : List Byte) : (s.storeCode chars).hl = s.hl := rfl
@[simp] theorem State.storeCode_pi (s : State) (chars : List Byte) : (s.storeCode chars).pi = s.pi := rfl
@[simp] theorem State.storeCode_fnd (s : State) (chars : List Byte) : (s.storeCode chars).fnd = s.fnd := rfl
@[simp] theorem State.storeCode_err (s : State) (chars : List Byte) : (s.storeCode chars).err = s.err := rfl
@[simp] theorem State.storeCode_einfo (s : State) (chars : List Byte) : (s.storeCode chars).einfo = s.einfo := rfl
@[simp] theorem State.storeCode_estk (s : State) (chars : List Byte) : (s.storeCode chars).estk = s.estk := rfl
@[simp] theorem State.storeCode_snap (s : State) (chars : List Byte) : (s.storeCode chars).snap = s.snap := rfl
@[simp] theorem State.storeCode_img (s : State) (chars : List Byte) : (s.storeCode chars).img = s.img := rfl
@[simp] theorem State.storeCode_params (s : State) (chars : List Byte) : (s.storeCode chars).params = s.params := rfl
@[simp] theorem State.storeCode_draws (s : State) (chars : List Byte) : (s.storeCode chars).draws = s.draws := rfl
@[simp] theorem State.storeCode_reply (s : State) (chars : List Byte) : (s.storeCode chars).reply = s.reply := rfl
@[simp] theorem State.storeCode_script (s : State) (chars : List Byte) : (s.storeCode chars).script = s.script := rfl

/-! ### State.storePatch -/

@[simp] theorem State.storePatch_a (s : State) (p : Patch) : (s.storePatch p).a = p.address.setWidth 32 := rfl
@[simp] theorem State.storePatch_v (s : State) (p : Patch) : (s.storePatch p).v = p.value.setWidth 32 := rfl
@[simp] theorem State.storePatch_c (s : State) (p : Patch) : (s.storePatch p).c = (p.compare.map (·.setWidth 32)).getD s.c := rfl
@[simp] theorem State.storePatch_cp (s : State) (p : Patch) : (s.storePatch p).cp = p.compare.isSome := rfl
@[simp] theorem State.storePatch_k (s : State) (p : Patch) : (s.storePatch p).k = s.k := rfl
@[simp] theorem State.storePatch_kl (s : State) (p : Patch) : (s.storePatch p).kl = s.kl := rfl
@[simp] theorem State.storePatch_bi (s : State) (p : Patch) : (s.storePatch p).bi = s.bi := rfl
@[simp] theorem State.storePatch_bo (s : State) (p : Patch) : (s.storePatch p).bo = s.bo := rfl
@[simp] theorem State.storePatch_d (s : State) (p : Patch) : (s.storePatch p).d = s.d := rfl
@[simp] theorem State.storePatch_eoff (s : State) (p : Patch) : (s.storePatch p).eoff = s.eoff := rfl
@[simp] theorem State.storePatch_prgn (s : State) (p : Patch) : (s.storePatch p).prgn = s.prgn := rfl
@[simp] theorem State.storePatch_chrn (s : State) (p : Patch) : (s.storePatch p).chrn = s.chrn := rfl
@[simp] theorem State.storePatch_trn (s : State) (p : Patch) : (s.storePatch p).trn = s.trn := rfl
@[simp] theorem State.storePatch_poff (s : State) (p : Patch) : (s.storePatch p).poff = s.poff := rfl
@[simp] theorem State.storePatch_hv (s : State) (p : Patch) : (s.storePatch p).hv = s.hv := rfl
@[simp] theorem State.storePatch_slots (s : State) (p : Patch) : (s.storePatch p).slots = s.slots := rfl
@[simp] theorem State.storePatch_np (s : State) (p : Patch) : (s.storePatch p).np = s.np := rfl
@[simp] theorem State.storePatch_ss (s : State) (p : Patch) : (s.storePatch p).ss = s.ss := rfl
@[simp] theorem State.storePatch_sj (s : State) (p : Patch) : (s.storePatch p).sj = s.sj := rfl
@[simp] theorem State.storePatch_sp (s : State) (p : Patch) : (s.storePatch p).sp = s.sp := rfl
@[simp] theorem State.storePatch_hl (s : State) (p : Patch) : (s.storePatch p).hl = s.hl := rfl
@[simp] theorem State.storePatch_pi (s : State) (p : Patch) : (s.storePatch p).pi = s.pi := rfl
@[simp] theorem State.storePatch_fnd (s : State) (p : Patch) : (s.storePatch p).fnd = s.fnd := rfl
@[simp] theorem State.storePatch_err (s : State) (p : Patch) : (s.storePatch p).err = s.err := rfl
@[simp] theorem State.storePatch_einfo (s : State) (p : Patch) : (s.storePatch p).einfo = s.einfo := rfl
@[simp] theorem State.storePatch_estk (s : State) (p : Patch) : (s.storePatch p).estk = s.estk := rfl
@[simp] theorem State.storePatch_snap (s : State) (p : Patch) : (s.storePatch p).snap = s.snap := rfl
@[simp] theorem State.storePatch_img (s : State) (p : Patch) : (s.storePatch p).img = s.img := rfl
@[simp] theorem State.storePatch_params (s : State) (p : Patch) : (s.storePatch p).params = s.params := rfl
@[simp] theorem State.storePatch_draws (s : State) (p : Patch) : (s.storePatch p).draws = s.draws := rfl
@[simp] theorem State.storePatch_reply (s : State) (p : Patch) : (s.storePatch p).reply = s.reply := rfl
@[simp] theorem State.storePatch_script (s : State) (p : Patch) : (s.storePatch p).script = s.script := rfl

/-! ### State.storeHeader -/

@[simp] theorem State.storeHeader_a (s : State) (b4 b5 b6 : Byte) : (s.storeHeader b4 b5 b6).a = s.a := rfl
@[simp] theorem State.storeHeader_v (s : State) (b4 b5 b6 : Byte) : (s.storeHeader b4 b5 b6).v = s.v := rfl
@[simp] theorem State.storeHeader_c (s : State) (b4 b5 b6 : Byte) : (s.storeHeader b4 b5 b6).c = s.c := rfl
@[simp] theorem State.storeHeader_cp (s : State) (b4 b5 b6 : Byte) : (s.storeHeader b4 b5 b6).cp = s.cp := rfl
@[simp] theorem State.storeHeader_k (s : State) (b4 b5 b6 : Byte) : (s.storeHeader b4 b5 b6).k = s.k := rfl
@[simp] theorem State.storeHeader_kl (s : State) (b4 b5 b6 : Byte) : (s.storeHeader b4 b5 b6).kl = s.kl := rfl
@[simp] theorem State.storeHeader_bi (s : State) (b4 b5 b6 : Byte) : (s.storeHeader b4 b5 b6).bi = s.bi := rfl
@[simp] theorem State.storeHeader_bo (s : State) (b4 b5 b6 : Byte) : (s.storeHeader b4 b5 b6).bo = s.bo := rfl
@[simp] theorem State.storeHeader_d (s : State) (b4 b5 b6 : Byte) : (s.storeHeader b4 b5 b6).d = s.d := rfl
@[simp] theorem State.storeHeader_eoff (s : State) (b4 b5 b6 : Byte) : (s.storeHeader b4 b5 b6).eoff = s.eoff := rfl
@[simp] theorem State.storeHeader_prgn (s : State) (b4 b5 b6 : Byte) : (s.storeHeader b4 b5 b6).prgn = b4 := rfl
@[simp] theorem State.storeHeader_chrn (s : State) (b4 b5 b6 : Byte) : (s.storeHeader b4 b5 b6).chrn = b5 := rfl
@[simp] theorem State.storeHeader_trn (s : State) (b4 b5 b6 : Byte) : (s.storeHeader b4 b5 b6).trn = b6.getLsbD 2 := rfl
@[simp] theorem State.storeHeader_poff (s : State) (b4 b5 b6 : Byte) : (s.storeHeader b4 b5 b6).poff = if b6.getLsbD 2 then 528 else 16 := rfl
@[simp] theorem State.storeHeader_hv (s : State) (b4 b5 b6 : Byte) : (s.storeHeader b4 b5 b6).hv = true := rfl
@[simp] theorem State.storeHeader_slots (s : State) (b4 b5 b6 : Byte) : (s.storeHeader b4 b5 b6).slots = s.slots := rfl
@[simp] theorem State.storeHeader_np (s : State) (b4 b5 b6 : Byte) : (s.storeHeader b4 b5 b6).np = s.np := rfl
@[simp] theorem State.storeHeader_ss (s : State) (b4 b5 b6 : Byte) : (s.storeHeader b4 b5 b6).ss = s.ss := rfl
@[simp] theorem State.storeHeader_sj (s : State) (b4 b5 b6 : Byte) : (s.storeHeader b4 b5 b6).sj = s.sj := rfl
@[simp] theorem State.storeHeader_sp (s : State) (b4 b5 b6 : Byte) : (s.storeHeader b4 b5 b6).sp = s.sp := rfl
@[simp] theorem State.storeHeader_hl (s : State) (b4 b5 b6 : Byte) : (s.storeHeader b4 b5 b6).hl = s.hl := rfl
@[simp] theorem State.storeHeader_pi (s : State) (b4 b5 b6 : Byte) : (s.storeHeader b4 b5 b6).pi = s.pi := rfl
@[simp] theorem State.storeHeader_fnd (s : State) (b4 b5 b6 : Byte) : (s.storeHeader b4 b5 b6).fnd = s.fnd := rfl
@[simp] theorem State.storeHeader_err (s : State) (b4 b5 b6 : Byte) : (s.storeHeader b4 b5 b6).err = s.err := rfl
@[simp] theorem State.storeHeader_einfo (s : State) (b4 b5 b6 : Byte) : (s.storeHeader b4 b5 b6).einfo = s.einfo := rfl
@[simp] theorem State.storeHeader_estk (s : State) (b4 b5 b6 : Byte) : (s.storeHeader b4 b5 b6).estk = s.estk := rfl
@[simp] theorem State.storeHeader_snap (s : State) (b4 b5 b6 : Byte) : (s.storeHeader b4 b5 b6).snap = s.snap := rfl
@[simp] theorem State.storeHeader_img (s : State) (b4 b5 b6 : Byte) : (s.storeHeader b4 b5 b6).img = s.img := rfl
@[simp] theorem State.storeHeader_params (s : State) (b4 b5 b6 : Byte) : (s.storeHeader b4 b5 b6).params = s.params := rfl
@[simp] theorem State.storeHeader_draws (s : State) (b4 b5 b6 : Byte) : (s.storeHeader b4 b5 b6).draws = s.draws := rfl
@[simp] theorem State.storeHeader_reply (s : State) (b4 b5 b6 : Byte) : (s.storeHeader b4 b5 b6).reply = s.reply := rfl
@[simp] theorem State.storeHeader_script (s : State) (b4 b5 b6 : Byte) : (s.storeHeader b4 b5 b6).script = s.script := rfl

/-! ### State.deliver -/

@[simp] theorem State.deliver_a (s : State) (r : Option Byte) : (s.deliver r).a = s.a := rfl
@[simp] theorem State.deliver_v (s : State) (r : Option Byte) : (s.deliver r).v = s.v := rfl
@[simp] theorem State.deliver_c (s : State) (r : Option Byte) : (s.deliver r).c = s.c := rfl
@[simp] theorem State.deliver_cp (s : State) (r : Option Byte) : (s.deliver r).cp = s.cp := rfl
@[simp] theorem State.deliver_k (s : State) (r : Option Byte) : (s.deliver r).k = s.k := rfl
@[simp] theorem State.deliver_kl (s : State) (r : Option Byte) : (s.deliver r).kl = s.kl := rfl
@[simp] theorem State.deliver_bi (s : State) (r : Option Byte) : (s.deliver r).bi = s.bi := rfl
@[simp] theorem State.deliver_bo (s : State) (r : Option Byte) : (s.deliver r).bo = s.bo := rfl
@[simp] theorem State.deliver_d (s : State) (r : Option Byte) : (s.deliver r).d = r.getD s.d := rfl
@[simp] theorem State.deliver_eoff (s : State) (r : Option Byte) : (s.deliver r).eoff = r.isNone := rfl
@[simp] theorem State.deliver_prgn (s : State) (r : Option Byte) : (s.deliver r).prgn = s.prgn := rfl
@[simp] theorem State.deliver_chrn (s : State) (r : Option Byte) : (s.deliver r).chrn = s.chrn := rfl
@[simp] theorem State.deliver_trn (s : State) (r : Option Byte) : (s.deliver r).trn = s.trn := rfl
@[simp] theorem State.deliver_poff (s : State) (r : Option Byte) : (s.deliver r).poff = s.poff := rfl
@[simp] theorem State.deliver_hv (s : State) (r : Option Byte) : (s.deliver r).hv = s.hv := rfl
@[simp] theorem State.deliver_slots (s : State) (r : Option Byte) : (s.deliver r).slots = s.slots := rfl
@[simp] theorem State.deliver_np (s : State) (r : Option Byte) : (s.deliver r).np = s.np := rfl
@[simp] theorem State.deliver_ss (s : State) (r : Option Byte) : (s.deliver r).ss = s.ss := rfl
@[simp] theorem State.deliver_sj (s : State) (r : Option Byte) : (s.deliver r).sj = s.sj := rfl
@[simp] theorem State.deliver_sp (s : State) (r : Option Byte) : (s.deliver r).sp = s.sp := rfl
@[simp] theorem State.deliver_hl (s : State) (r : Option Byte) : (s.deliver r).hl = s.hl := rfl
@[simp] theorem State.deliver_pi (s : State) (r : Option Byte) : (s.deliver r).pi = s.pi := rfl
@[simp] theorem State.deliver_fnd (s : State) (r : Option Byte) : (s.deliver r).fnd = s.fnd := rfl
@[simp] theorem State.deliver_err (s : State) (r : Option Byte) : (s.deliver r).err = s.err := rfl
@[simp] theorem State.deliver_einfo (s : State) (r : Option Byte) : (s.deliver r).einfo = s.einfo := rfl
@[simp] theorem State.deliver_estk (s : State) (r : Option Byte) : (s.deliver r).estk = s.estk := rfl
@[simp] theorem State.deliver_snap (s : State) (r : Option Byte) : (s.deliver r).snap = s.snap := rfl
@[simp] theorem State.deliver_img (s : State) (r : Option Byte) : (s.deliver r).img = s.img := rfl
@[simp] theorem State.deliver_params (s : State) (r : Option Byte) : (s.deliver r).params = s.params := rfl
@[simp] theorem State.deliver_draws (s : State) (r : Option Byte) : (s.deliver r).draws = s.draws := rfl
@[simp] theorem State.deliver_reply (s : State) (r : Option Byte) : (s.deliver r).reply = s.reply := rfl
@[simp] theorem State.deliver_script (s : State) (r : Option Byte) : (s.deliver r).script = s.script := rfl

/-! ### State.reportHit -/

@[simp] theorem State.reportHit_a (s : State) (j h : Nat) : (s.reportHit j h).a = cand h (s.slotAt j).po := rfl
@[simp] theorem State.reportHit_v (s : State) (j h : Nat) : (s.reportHit j h).v = s.v := by cases s; rfl
@[simp] theorem State.reportHit_c (s : State) (j h : Nat) : (s.reportHit j h).c = s.c := by cases s; rfl
@[simp] theorem State.reportHit_cp (s : State) (j h : Nat) : (s.reportHit j h).cp = s.cp := by cases s; rfl
@[simp] theorem State.reportHit_k (s : State) (j h : Nat) : (s.reportHit j h).k = s.k := by cases s; rfl
@[simp] theorem State.reportHit_kl (s : State) (j h : Nat) : (s.reportHit j h).kl = s.kl := by cases s; rfl
@[simp] theorem State.reportHit_bi (s : State) (j h : Nat) : (s.reportHit j h).bi = s.bi := by cases s; rfl
@[simp] theorem State.reportHit_bo (s : State) (j h : Nat) : (s.reportHit j h).bo = s.bo := by cases s; rfl
@[simp] theorem State.reportHit_d (s : State) (j h : Nat) : (s.reportHit j h).d = s.d := by cases s; rfl
@[simp] theorem State.reportHit_eoff (s : State) (j h : Nat) : (s.reportHit j h).eoff = s.eoff := by cases s; rfl
@[simp] theorem State.reportHit_prgn (s : State) (j h : Nat) : (s.reportHit j h).prgn = s.prgn := by cases s; rfl
@[simp] theorem State.reportHit_chrn (s : State) (j h : Nat) : (s.reportHit j h).chrn = s.chrn := by cases s; rfl
@[simp] theorem State.reportHit_trn (s : State) (j h : Nat) : (s.reportHit j h).trn = s.trn := by cases s; rfl
@[simp] theorem State.reportHit_poff (s : State) (j h : Nat) : (s.reportHit j h).poff = s.poff := by cases s; rfl
@[simp] theorem State.reportHit_hv (s : State) (j h : Nat) : (s.reportHit j h).hv = s.hv := by cases s; rfl
@[simp] theorem State.reportHit_slots (s : State) (j h : Nat) : (s.reportHit j h).slots = s.slots := by cases s; rfl
@[simp] theorem State.reportHit_np (s : State) (j h : Nat) : (s.reportHit j h).np = s.np := by cases s; rfl
@[simp] theorem State.reportHit_ss (s : State) (j h : Nat) : (s.reportHit j h).ss = s.ss := by cases s; rfl
@[simp] theorem State.reportHit_sj (s : State) (j h : Nat) : (s.reportHit j h).sj = BitVec.ofNat 4 j := rfl
@[simp] theorem State.reportHit_sp (s : State) (j h : Nat) :
    (s.reportHit j h).sp = BitVec.ofNat 32 (h + stepBy s.params.scanStep (s.slotAt j).plen.toNat) := rfl
@[simp] theorem State.reportHit_hl (s : State) (j h : Nat) : (s.reportHit j h).hl = BitVec.ofNat 32 h := rfl
@[simp] theorem State.reportHit_pi (s : State) (j h : Nat) : (s.reportHit j h).pi = BitVec.ofNat 3 j := rfl
@[simp] theorem State.reportHit_fnd (s : State) (j h : Nat) : (s.reportHit j h).fnd = true := rfl
@[simp] theorem State.reportHit_err (s : State) (j h : Nat) : (s.reportHit j h).err = s.err := by cases s; rfl
@[simp] theorem State.reportHit_einfo (s : State) (j h : Nat) : (s.reportHit j h).einfo = s.einfo := by cases s; rfl
@[simp] theorem State.reportHit_estk (s : State) (j h : Nat) : (s.reportHit j h).estk = s.estk := by cases s; rfl
@[simp] theorem State.reportHit_snap (s : State) (j h : Nat) : (s.reportHit j h).snap = s.snap := by cases s; rfl
@[simp] theorem State.reportHit_img (s : State) (j h : Nat) : (s.reportHit j h).img = s.img := by cases s; rfl
@[simp] theorem State.reportHit_params (s : State) (j h : Nat) : (s.reportHit j h).params = s.params := by cases s; rfl
@[simp] theorem State.reportHit_draws (s : State) (j h : Nat) : (s.reportHit j h).draws = s.draws := by cases s; rfl
@[simp] theorem State.reportHit_reply (s : State) (j h : Nat) : (s.reportHit j h).reply = s.reply := by cases s; rfl
@[simp] theorem State.reportHit_script (s : State) (j h : Nat) : (s.reportHit j h).script = s.script := by cases s; rfl

/-! ### State.reportExhausted -/

@[simp] theorem State.reportExhausted_a (s : State) (j : Nat) : (s.reportExhausted j).a = s.a := by cases s; rfl
@[simp] theorem State.reportExhausted_v (s : State) (j : Nat) : (s.reportExhausted j).v = s.v := by cases s; rfl
@[simp] theorem State.reportExhausted_c (s : State) (j : Nat) : (s.reportExhausted j).c = s.c := by cases s; rfl
@[simp] theorem State.reportExhausted_cp (s : State) (j : Nat) : (s.reportExhausted j).cp = s.cp := by cases s; rfl
@[simp] theorem State.reportExhausted_k (s : State) (j : Nat) : (s.reportExhausted j).k = s.k := by cases s; rfl
@[simp] theorem State.reportExhausted_kl (s : State) (j : Nat) : (s.reportExhausted j).kl = s.kl := by cases s; rfl
@[simp] theorem State.reportExhausted_bi (s : State) (j : Nat) : (s.reportExhausted j).bi = s.bi := by cases s; rfl
@[simp] theorem State.reportExhausted_bo (s : State) (j : Nat) : (s.reportExhausted j).bo = s.bo := by cases s; rfl
@[simp] theorem State.reportExhausted_d (s : State) (j : Nat) : (s.reportExhausted j).d = s.d := by cases s; rfl
@[simp] theorem State.reportExhausted_eoff (s : State) (j : Nat) : (s.reportExhausted j).eoff = s.eoff := by cases s; rfl
@[simp] theorem State.reportExhausted_prgn (s : State) (j : Nat) : (s.reportExhausted j).prgn = s.prgn := by cases s; rfl
@[simp] theorem State.reportExhausted_chrn (s : State) (j : Nat) : (s.reportExhausted j).chrn = s.chrn := by cases s; rfl
@[simp] theorem State.reportExhausted_trn (s : State) (j : Nat) : (s.reportExhausted j).trn = s.trn := by cases s; rfl
@[simp] theorem State.reportExhausted_poff (s : State) (j : Nat) : (s.reportExhausted j).poff = s.poff := by cases s; rfl
@[simp] theorem State.reportExhausted_hv (s : State) (j : Nat) : (s.reportExhausted j).hv = s.hv := by cases s; rfl
@[simp] theorem State.reportExhausted_slots (s : State) (j : Nat) : (s.reportExhausted j).slots = s.slots := by cases s; rfl
@[simp] theorem State.reportExhausted_np (s : State) (j : Nat) : (s.reportExhausted j).np = s.np := by cases s; rfl
@[simp] theorem State.reportExhausted_ss (s : State) (j : Nat) : (s.reportExhausted j).ss = .done := rfl
@[simp] theorem State.reportExhausted_sj (s : State) (j : Nat) : (s.reportExhausted j).sj = BitVec.ofNat 4 j := rfl
@[simp] theorem State.reportExhausted_sp (s : State) (j : Nat) : (s.reportExhausted j).sp = 0 := rfl
@[simp] theorem State.reportExhausted_hl (s : State) (j : Nat) : (s.reportExhausted j).hl = s.hl := by cases s; rfl
@[simp] theorem State.reportExhausted_pi (s : State) (j : Nat) : (s.reportExhausted j).pi = s.pi := by cases s; rfl
@[simp] theorem State.reportExhausted_fnd (s : State) (j : Nat) : (s.reportExhausted j).fnd = false := rfl
@[simp] theorem State.reportExhausted_err (s : State) (j : Nat) : (s.reportExhausted j).err = s.err := by cases s; rfl
@[simp] theorem State.reportExhausted_einfo (s : State) (j : Nat) : (s.reportExhausted j).einfo = s.einfo := by cases s; rfl
@[simp] theorem State.reportExhausted_estk (s : State) (j : Nat) : (s.reportExhausted j).estk = s.estk := by cases s; rfl
@[simp] theorem State.reportExhausted_snap (s : State) (j : Nat) : (s.reportExhausted j).snap = s.snap := by cases s; rfl
@[simp] theorem State.reportExhausted_img (s : State) (j : Nat) : (s.reportExhausted j).img = s.img := by cases s; rfl
@[simp] theorem State.reportExhausted_params (s : State) (j : Nat) : (s.reportExhausted j).params = s.params := by cases s; rfl
@[simp] theorem State.reportExhausted_draws (s : State) (j : Nat) : (s.reportExhausted j).draws = s.draws := by cases s; rfl
@[simp] theorem State.reportExhausted_reply (s : State) (j : Nat) : (s.reportExhausted j).reply = s.reply := by cases s; rfl
@[simp] theorem State.reportExhausted_script (s : State) (j : Nat) : (s.reportExhausted j).script = s.script := by cases s; rfl

/-! ### State.resetBlock -/

@[simp] theorem State.resetBlock_a (s : State) : s.resetBlock.a = 0 := rfl
@[simp] theorem State.resetBlock_v (s : State) : s.resetBlock.v = 0 := rfl
@[simp] theorem State.resetBlock_c (s : State) : s.resetBlock.c = 0 := rfl
@[simp] theorem State.resetBlock_cp (s : State) : s.resetBlock.cp = false := rfl
@[simp] theorem State.resetBlock_k (s : State) : s.resetBlock.k = Vector.replicate 8 0 := rfl
@[simp] theorem State.resetBlock_kl (s : State) : s.resetBlock.kl = 0 := rfl
@[simp] theorem State.resetBlock_bi (s : State) : s.resetBlock.bi = 0 := rfl
@[simp] theorem State.resetBlock_bo (s : State) : s.resetBlock.bo = 0 := rfl
@[simp] theorem State.resetBlock_d (s : State) : s.resetBlock.d = 0 := rfl
@[simp] theorem State.resetBlock_eoff (s : State) : s.resetBlock.eoff = false := rfl
@[simp] theorem State.resetBlock_prgn (s : State) : s.resetBlock.prgn = 0 := rfl
@[simp] theorem State.resetBlock_chrn (s : State) : s.resetBlock.chrn = 0 := rfl
@[simp] theorem State.resetBlock_trn (s : State) : s.resetBlock.trn = false := rfl
@[simp] theorem State.resetBlock_poff (s : State) : s.resetBlock.poff = 0 := rfl
@[simp] theorem State.resetBlock_hv (s : State) : s.resetBlock.hv = false := rfl
@[simp] theorem State.resetBlock_slots (s : State) : s.resetBlock.slots = Vector.replicate 8 Slot.zero := rfl
@[simp] theorem State.resetBlock_np (s : State) : s.resetBlock.np = 0 := rfl
@[simp] theorem State.resetBlock_ss (s : State) : s.resetBlock.ss = .idle := rfl
@[simp] theorem State.resetBlock_sj (s : State) : s.resetBlock.sj = 0 := rfl
@[simp] theorem State.resetBlock_sp (s : State) : s.resetBlock.sp = 0 := rfl
@[simp] theorem State.resetBlock_hl (s : State) : s.resetBlock.hl = 0 := rfl
@[simp] theorem State.resetBlock_pi (s : State) : s.resetBlock.pi = 0 := rfl
@[simp] theorem State.resetBlock_fnd (s : State) : s.resetBlock.fnd = false := rfl
@[simp] theorem State.resetBlock_err (s : State) : s.resetBlock.err = 0 := rfl
@[simp] theorem State.resetBlock_einfo (s : State) : s.resetBlock.einfo = 0 := rfl
@[simp] theorem State.resetBlock_estk (s : State) : s.resetBlock.estk = 0 := rfl
@[simp] theorem State.resetBlock_snap (s : State) : s.resetBlock.snap = none := rfl
@[simp] theorem State.resetBlock_img (s : State) : s.resetBlock.img = s.img := rfl
@[simp] theorem State.resetBlock_params (s : State) : s.resetBlock.params = s.params := rfl
@[simp] theorem State.resetBlock_draws (s : State) : s.resetBlock.draws = s.draws := rfl
@[simp] theorem State.resetBlock_reply (s : State) : s.resetBlock.reply = s.reply := rfl
@[simp] theorem State.resetBlock_script (s : State) : s.resetBlock.script = s.script := rfl

/-! ### State.hardReset -/

@[simp] theorem State.hardReset_a (s : State) (i : Image) : (s.hardReset i).a = 0 := rfl
@[simp] theorem State.hardReset_v (s : State) (i : Image) : (s.hardReset i).v = 0 := rfl
@[simp] theorem State.hardReset_c (s : State) (i : Image) : (s.hardReset i).c = 0 := rfl
@[simp] theorem State.hardReset_cp (s : State) (i : Image) : (s.hardReset i).cp = false := rfl
@[simp] theorem State.hardReset_k (s : State) (i : Image) : (s.hardReset i).k = Vector.replicate 8 0 := rfl
@[simp] theorem State.hardReset_kl (s : State) (i : Image) : (s.hardReset i).kl = 0 := rfl
@[simp] theorem State.hardReset_bi (s : State) (i : Image) : (s.hardReset i).bi = 0 := rfl
@[simp] theorem State.hardReset_bo (s : State) (i : Image) : (s.hardReset i).bo = 0 := rfl
@[simp] theorem State.hardReset_d (s : State) (i : Image) : (s.hardReset i).d = 0 := rfl
@[simp] theorem State.hardReset_eoff (s : State) (i : Image) : (s.hardReset i).eoff = false := rfl
@[simp] theorem State.hardReset_prgn (s : State) (i : Image) : (s.hardReset i).prgn = 0 := rfl
@[simp] theorem State.hardReset_chrn (s : State) (i : Image) : (s.hardReset i).chrn = 0 := rfl
@[simp] theorem State.hardReset_trn (s : State) (i : Image) : (s.hardReset i).trn = false := rfl
@[simp] theorem State.hardReset_poff (s : State) (i : Image) : (s.hardReset i).poff = 0 := rfl
@[simp] theorem State.hardReset_hv (s : State) (i : Image) : (s.hardReset i).hv = false := rfl
@[simp] theorem State.hardReset_slots (s : State) (i : Image) : (s.hardReset i).slots = Vector.replicate 8 Slot.zero := rfl
@[simp] theorem State.hardReset_np (s : State) (i : Image) : (s.hardReset i).np = 0 := rfl
@[simp] theorem State.hardReset_ss (s : State) (i : Image) : (s.hardReset i).ss = .idle := rfl
@[simp] theorem State.hardReset_sj (s : State) (i : Image) : (s.hardReset i).sj = 0 := rfl
@[simp] theorem State.hardReset_sp (s : State) (i : Image) : (s.hardReset i).sp = 0 := rfl
@[simp] theorem State.hardReset_hl (s : State) (i : Image) : (s.hardReset i).hl = 0 := rfl
@[simp] theorem State.hardReset_pi (s : State) (i : Image) : (s.hardReset i).pi = 0 := rfl
@[simp] theorem State.hardReset_fnd (s : State) (i : Image) : (s.hardReset i).fnd = false := rfl
@[simp] theorem State.hardReset_err (s : State) (i : Image) : (s.hardReset i).err = 0 := rfl
@[simp] theorem State.hardReset_einfo (s : State) (i : Image) : (s.hardReset i).einfo = 0 := rfl
@[simp] theorem State.hardReset_estk (s : State) (i : Image) : (s.hardReset i).estk = 0 := rfl
@[simp] theorem State.hardReset_snap (s : State) (i : Image) : (s.hardReset i).snap = none := rfl
@[simp] theorem State.hardReset_img (s : State) (i : Image) : (s.hardReset i).img = i := rfl
@[simp] theorem State.hardReset_params (s : State) (i : Image) : (s.hardReset i).params = s.params := rfl
@[simp] theorem State.hardReset_draws (s : State) (i : Image) : (s.hardReset i).draws = s.draws := rfl
@[simp] theorem State.hardReset_reply (s : State) (i : Image) : (s.hardReset i).reply = s.reply := rfl
@[simp] theorem State.hardReset_script (s : State) (i : Image) : (s.hardReset i).script = s.script := rfl

end Sys2Proof.Machine
end

