-- ==== Sys2Proof/Laws/Ops.lean ====
section
/-! SUPPORT. What each shared operation can do, said once: the end of a command, a read of the image, the header
parse, the reader's checks and reads. Later proofs cite these lemmas and do not unfold the operations. -/

namespace Sys2Proof.Machine

open Sys2Proof

/-! ### The end of a command -/

@[simp] theorem State.settle_ok (s t : State) : s.settle (.ok t) = t.succeed := rfl

@[simp] theorem State.settle_error (s : State) (e : CmdError) : s.settle (.error e) = s.raise e := rfl

/-- A command ends in one of two ways (R184). -/
theorem State.settle_cases (s : State) (r : Except CmdError State) :
    (∃ t, r = .ok t ∧ s.settle r = t.succeed) ∨ (∃ e, r = .error e ∧ s.settle r = s.raise e) := by
  cases r with
  | ok t => exact .inl ⟨t, rfl, rfl⟩
  | error e => exact .inr ⟨e, rfl, rfl⟩

/-- Every error has a class from 1 to 4 (R220). -/
theorem errClass_range (e : CmdError) : 1 ≤ (errClass e).toNat ∧ (errClass e).toNat ≤ 4 := by
  cases e <;> simp [errClass]

/-- `EINFO` as a number (R225). -/
theorem errInfo_toNat (e : CmdError) : (errInfo e).toNat = (errIdx e).toNat * 256 + (errSub e).toNat := by
  have h := (errSub e).isLt
  simp only [errInfo, BitVec.toNat_append, BitVec.toNat_ofNat, Nat.zero_mod, Nat.shiftLeft_eq]
  rw [Nat.mul_comm, ← Nat.two_pow_add_eq_or_of_lt h, Nat.zero_mul, Nat.zero_or]
  omega

/-- The sub-cause of an error is never 0 (R225). -/
theorem errSub_ne_zero (e : CmdError) : (errSub e).toNat ≠ 0 := by
  cases e <;> simp [errSub]

/-! ### Reads of the image -/

/-- While the snapshot is empty or equals the image, a read delivers the image's byte (R39). -/
theorem State.imgByte_eq {s : State} (h : s.SnapInv) (off : Nat) : s.imgByte off = s.img.read off := by
  unfold State.imgByte
  rcases h with h | h <;> simp [h]

/-- What `MemRead` answers (R61). -/
theorem State.memRead_cases (s : State) (off : Nat) :
    (s.ioFails off = true ∧ s.memRead off = .error .ioFailure) ∨
    (s.ioFails off = false ∧ s.memRead off = .ok (s.imgByte off)) := by
  unfold State.memRead
  cases s.ioFails off <;> simp

/-- `MemRead` where no I/O failure is drawn (R61). -/
theorem State.memRead_ok {s : State} {off : Nat} (h : s.ioFails off = false) : s.memRead off = .ok (s.imgByte off) := by
  simp [State.memRead, h]

/-- With the default `IMG_IO_FAULTS = false` no read fails (R61). -/
theorem State.noIoFailure_of_default {s : State} (h : s.params.imgIoFaults = false) : s.NoIoFailure := by
  intro off
  simp [State.ioFails, h]

/-! ### The header parse -/

/-- What a header byte can be: an I/O failure, a short file, or the byte read (R140). -/
theorem State.headerByte_cases (s : State) (off : Nat) :
    (s.ioFails off = true ∧ s.headerByte off = .error .ioFailure) ∨
    (s.ioFails off = false ∧ s.imgByte off = none ∧ s.headerByte off = .error .shortHeader) ∨
    (s.ioFails off = false ∧ ∃ b, s.imgByte off = some b ∧ s.headerByte off = .ok b) := by
  unfold State.headerByte
  rcases s.memRead_cases off with ⟨h, hr⟩ | ⟨h, hr⟩
  · exact .inl ⟨h, by rw [hr]⟩
  · rw [hr]
    cases hb : s.imgByte off with
    | none => exact .inr (.inl ⟨h, rfl, rfl⟩)
    | some b => exact .inr (.inr ⟨h, b, rfl, rfl⟩)

/-- A header parse that succeeds found a parsed header or read its three bytes (R140). -/
theorem State.ensureHeader_ok {s h : State} (hp : s.ensureHeader = .ok h) :
    (s.hv = true ∧ h = s) ∨
    (s.hv = false ∧ 16 ≤ s.img.len.toNat ∧ ∃ b4 b5 b6,
      s.imgByte 4 = some b4 ∧ s.imgByte 5 = some b5 ∧ s.imgByte 6 = some b6 ∧ h = s.storeHeader b4 b5 b6) := by
  unfold State.ensureHeader at hp
  cases hv : s.hv with
  | true =>
    rw [hv] at hp
    exact .inl ⟨rfl, by simpa using hp.symm⟩
  | false =>
    rw [hv] at hp
    by_cases hl : s.img.len.toNat < 16
    · simp [hl] at hp
    · refine .inr ⟨rfl, by omega, ?_⟩
      rcases s.headerByte_cases 4 with ⟨_, h4⟩ | ⟨_, _, h4⟩ | ⟨_, b4, e4, h4⟩ <;> simp [hl, h4] at hp
      rcases s.headerByte_cases 5 with ⟨_, h5⟩ | ⟨_, _, h5⟩ | ⟨_, b5, e5, h5⟩ <;> simp [h5] at hp
      rcases s.headerByte_cases 6 with ⟨_, h6⟩ | ⟨_, _, h6⟩ | ⟨_, b6, e6, h6⟩ <;> simp [h6] at hp
      exact ⟨b4, b5, b6, e4, e5, e6, hp.symm⟩

/-- A header parse fails only while no header is parsed, on a short image or an I/O failure (R140). -/
theorem State.ensureHeader_error {s : State} {e : CmdError} (hp : s.ensureHeader = .error e) :
    s.hv = false ∧ (e = .shortHeader ∨ e = .ioFailure) := by
  unfold State.ensureHeader at hp
  cases hv : s.hv with
  | true => simp [hv] at hp
  | false =>
    refine ⟨rfl, ?_⟩
    rw [hv] at hp
    by_cases hl : s.img.len.toNat < 16
    · simp [hl] at hp; exact .inl hp.symm
    · rcases s.headerByte_cases 4 with ⟨_, h4⟩ | ⟨_, _, h4⟩ | ⟨_, b4, e4, h4⟩ <;> simp [hl, h4] at hp
      · exact .inr hp.symm
      · exact .inl hp.symm
      rcases s.headerByte_cases 5 with ⟨_, h5⟩ | ⟨_, _, h5⟩ | ⟨_, b5, e5, h5⟩ <;> simp [h5] at hp
      · exact .inr hp.symm
      · exact .inl hp.symm
      rcases s.headerByte_cases 6 with ⟨_, h6⟩ | ⟨_, _, h6⟩ | ⟨_, b6, e6, h6⟩ <;> simp [h6] at hp
      · exact .inr hp.symm
      · exact .inl hp.symm

/-- With a header parsed, nothing is parsed again (R140, R258). -/
@[simp] theorem State.ensureHeader_parsed {s : State} (h : s.hv = true) : s.ensureHeader = .ok s := by
  simp [State.ensureHeader, h]

/-- A command that begins with `EnsureHeader()` ends after a failed parse, or in its body with the parse kept
(R140, R229). -/
theorem State.withHeader_cases (s : State) (body : State → Except CmdError State) :
    (∃ e, s.ensureHeader = .error e ∧ s.withHeader body = (s.raise e).nextDraw) ∨
    (∃ h e, s.ensureHeader = .ok h ∧ body h = .error e ∧ s.withHeader body = (h.raise e).nextDraw) ∨
    (∃ h t, s.ensureHeader = .ok h ∧ body h = .ok t ∧ s.withHeader body = t.succeed.nextDraw) := by
  unfold State.withHeader
  cases hp : s.ensureHeader with
  | error e => exact .inl ⟨e, rfl, rfl⟩
  | ok h =>
    rcases h.settle_cases (body h) with ⟨t, hb, hs⟩ | ⟨e, hb, hs⟩
    · exact .inr (.inr ⟨h, t, rfl, hb, by rw [← hs]⟩)
    · exact .inr (.inl ⟨h, e, rfl, hb, by rw [← hs]⟩)

/-- With a header parsed, the command is its body. -/
theorem State.withHeader_parsed {s : State} (h : s.hv = true) (body : State → Except CmdError State) :
    s.withHeader body = (s.settle (body s)).nextDraw := by
  simp [State.withHeader, h]

/-! ### The reader -/

/-- A payload read fails with an I/O failure or delivers what the image space holds at the offset (R142 to R146). -/
theorem State.readPayload_cases (s : State) (off : Nat) :
    (s.ioFails off = true ∧ s.readPayload off = .error .ioFailure) ∨
    (s.ioFails off = false ∧ s.readPayload off = .ok (s.fillSnap.deliver (s.imgByte off))) := by
  unfold State.readPayload
  rcases s.memRead_cases off with ⟨h, hr⟩ | ⟨h, hr⟩
  · exact .inl ⟨h, by rw [hr]⟩
  · exact .inr ⟨h, by rw [hr]⟩

/-- What RDP and RDC can do after the header (R142, R143). -/
theorem State.readBank_cases (s : State) (r : Region) :
    (s.bankCount r ≤ s.bi.toNat ∧ s.readBank r = .error (.bankIndex s.bi)) ∨
    (s.bi.toNat < s.bankCount r ∧ bankSize r ≤ s.bo.toNat ∧ s.readBank r = .error .badOffset) ∨
    (s.bi.toNat < s.bankCount r ∧ s.bo.toNat < bankSize r ∧
      s.readBank r = s.readPayload (s.bankOffset r s.bi.toNat s.bo.toNat)) := by
  unfold State.readBank State.bankInRange
  by_cases h1 : s.bi.toNat < s.bankCount r
  · by_cases h2 : bankSize r ≤ s.bo.toNat
    · exact .inr (.inl ⟨h1, h2, by simp [h1, h2]⟩)
    · exact .inr (.inr ⟨h1, by omega, by simp [h1, h2]⟩)
  · exact .inl ⟨by omega, by simp [h1]⟩

/-- What RDPA and RDCA can do after the header (R145, R146). -/
theorem State.readBankAt_cases (s : State) (r : Region) :
    (addressLegal s.a = false ∧ s.readBankAt r = .error .address) ∨
    (addressLegal s.a = true ∧ s.bankCount r ≤ s.bi.toNat ∧ s.readBankAt r = .error (.bankIndex s.bi)) ∨
    (addressLegal s.a = true ∧ s.bi.toNat < s.bankCount r ∧
      s.readBankAt r =
        s.readPayload (s.bankOffset r s.bi.toNat (bankOff s.params.bankOff r (s.a.setWidth 16)))) := by
  unfold State.readBankAt State.bankInRange
  cases ha : addressLegal s.a with
  | false => exact .inl ⟨rfl, by simp⟩
  | true =>
    by_cases h1 : s.bi.toNat < s.bankCount r
    · exact .inr (.inr ⟨rfl, h1, by simp [h1]⟩)
    · exact .inr (.inl ⟨rfl, by omega, by simp [h1]⟩)

/-- What RDR can do after the header (R144). -/
theorem State.readRegion_cases (s : State) :
    (s.prgLen ≤ s.bo.toNat ∧ s.readRegion = .ok (s.deliver none)) ∨
    (s.bo.toNat < s.prgLen ∧ s.readRegion = s.readPayload (s.poff.toNat + s.bo.toNat)) := by
  unfold State.readRegion
  by_cases h : s.prgLen ≤ s.bo.toNat
  · exact .inl ⟨h, by simp [h]⟩
  · exact .inr ⟨by omega, by simp [h]⟩

/-- `BANKOFF` answers an offset inside the bank (R68). -/
theorem bankOff_lt (strategy : List BankOffEntry) (r : Region) (address : BitVec 16) :
    bankOff strategy r address < bankSize r := by
  induction strategy with
  | nil => exact Nat.mod_lt _ (by cases r <;> simp [bankSize])
  | cons e rest ih =>
    unfold bankOff
    split
    · exact Nat.mod_lt _ (by cases r <;> simp [bankSize])
    · exact ih

/-- `RL` fits 22 bits (R64). -/
theorem State.prgLen_le (s : State) : s.prgLen ≤ 4177920 := by
  unfold State.prgLen
  have := s.prgn.isLt
  omega

/-! ### Legal operands -/

theorem addressLegal_iff (a : Word) : addressLegal a = true ↔ 0x8000 ≤ a.toNat ∧ a.toNat ≤ 0xFFFF := by
  simp [addressLegal]

theorem byteLegal_iff (w : Word) : byteLegal w = true ↔ w.toNat ≤ 0xFF := by
  simp [byteLegal]

end Sys2Proof.Machine
end

