-- ==== Sys2Proof/Laws/Codec.lean ====
section
/-! SUPPORT. What the codec's shared functions can do: the alphabet and its inverse, the checks of an encode, the
reading of a code's characters (spec/40_codec.md). -/

namespace Sys2Proof.Machine

open Sys2Proof

/-- `NIB` undoes `ALPHA` (R95). -/
theorem nibOf_alphaChar : ∀ n : Nibble, nibOf (alphaChar n) = some n := by decide

/-- A character with a nibble is that nibble's symbol (R95). -/
theorem alphaChar_of_nibOf {ch : Byte} {n : Nibble} : nibOf ch = some n → alphaChar n = ch := by
  revert ch n; decide +revert

/-- What the checks of an encode can answer (R222). -/
theorem State.operandPatch_cases (s : State) (withCompare : Bool) :
    (addressLegal s.a = false ∧ s.operandPatch withCompare = .error .address) ∨
    (addressLegal s.a = true ∧ byteLegal s.v = false ∧ s.operandPatch withCompare = .error .value) ∨
    (addressLegal s.a = true ∧ byteLegal s.v = true ∧ withCompare = true ∧ byteLegal s.c = false ∧
      s.operandPatch withCompare = .error .compare) ∨
    (addressLegal s.a = true ∧ byteLegal s.v = true ∧ (withCompare = true → byteLegal s.c = true) ∧
      s.operandPatch withCompare = .ok
        ⟨s.a.setWidth 16, s.v.setWidth 8, if withCompare then some (s.c.setWidth 8) else none⟩) := by
  unfold State.operandPatch
  cases addressLegal s.a <;> cases byteLegal s.v <;> cases withCompare <;> cases byteLegal s.c <;> simp

/-- The nibbles read from characters are theirs, one each, when all are in the alphabet (R123). -/
theorem readNibbles_ok {chars : List Byte} {i : Nat} {ns : List Nibble} (h : readNibbles chars i = .ok ns) :
    chars.map nibOf = ns.map some := by
  induction chars generalizing i ns with
  | nil => simp [readNibbles] at h; simp [← h]
  | cons ch rest ih =>
    unfold readNibbles at h
    cases hn : nibOf ch with
    | none => simp [hn] at h
    | some n =>
      cases hr : readNibbles rest (i + 1) with
      | error e => simp [hn, hr] at h
      | ok ms => simp [hn, hr] at h; simp [← h, hn, ih hr]

/-- A failure names the lowest character outside the alphabet (R123, R221). -/
theorem readNibbles_error {chars : List Byte} {i : Nat} {e : CmdError} (h : readNibbles chars i = .error e) :
    ∃ m, ∃ hm : m < chars.length, e = .badChar (i + m) ∧ nibOf chars[m] = none ∧
      ∀ j, ∀ hj : j < m, nibOf (chars[j]'(by omega)) ≠ none := by
  induction chars generalizing i with
  | nil => simp [readNibbles] at h
  | cons ch rest ih =>
    unfold readNibbles at h
    cases hn : nibOf ch with
    | none => exact ⟨0, by simp, by simpa [hn] using h.symm, by simpa using hn, by intro j hj; omega⟩
    | some n =>
      cases hr : readNibbles rest (i + 1) with
      | ok ms => simp [hn, hr] at h
      | error e' =>
        simp [hn, hr] at h
        subst h
        obtain ⟨m, hm, he, hb, hl⟩ := ih hr
        refine ⟨m + 1, by simpa using hm, by rw [he]; congr 1; omega, by simpa using hb, ?_⟩
        intro j hj
        cases j with
        | zero => simp [hn]
        | succ j => simpa using hl j (by omega)

/-- The number of nibbles is the number of characters. -/
theorem readNibbles_length {chars : List Byte} {i : Nat} {ns : List Nibble} (h : readNibbles chars i = .ok ns) :
    ns.length = chars.length := by
  simpa using (congrArg List.length (readNibbles_ok h)).symm

/-- The characters of nibbles read back as the nibbles (R124). -/
theorem readNibbles_map_alphaChar (ns : List Nibble) (i : Nat) : readNibbles (ns.map alphaChar) i = .ok ns := by
  induction ns generalizing i with
  | nil => rfl
  | cons n rest ih => simp [readNibbles, nibOf_alphaChar, ih]

/-- What DEC's decoding can answer (R123). -/
theorem decodeCells_cases (k : Vector Byte 8) (kl : BitVec 4) :
    (kl ≠ 6 ∧ kl ≠ 8 ∧ decodeCells k kl = .error (.badLength kl)) ∨
    ((kl = 6 ∨ kl = 8) ∧ ∃ e, readNibbles (k.toList.take kl.toNat) 0 = .error e ∧ decodeCells k kl = .error e) ∨
    ((kl = 6 ∨ kl = 8) ∧ ∃ ns, readNibbles (k.toList.take kl.toNat) 0 = .ok ns ∧
      decodeCells k kl = .ok (decodeNibbles ns)) := by
  unfold decodeCells
  by_cases h : kl ≠ 6 ∧ kl ≠ 8
  · exact .inl ⟨h.1, h.2, by rw [if_pos h]⟩
  · rw [if_neg h]
    have hk : kl = 6 ∨ kl = 8 := by
      by_cases h6 : kl = 6
      · exact .inl h6
      · exact .inr (by by_contra h8; exact h ⟨h6, h8⟩)
    cases hr : readNibbles (k.toList.take kl.toNat) 0 with
    | error e => exact .inr (.inl ⟨hk, e, rfl, rfl⟩)
    | ok ns => exact .inr (.inr ⟨hk, ns, rfl, rfl⟩)

/-- An encoded patch has 6 or 8 nibbles (R96). -/
theorem encodeNibbles_length (address : BitVec 16) (value : Byte) (compare : Option Byte) :
    (encodeNibbles address value compare).length = if compare.isSome then 8 else 6 := by
  cases compare <;> rfl

/-- Stored characters stand in their cells; the other cells keep their contents (R121). -/
theorem storeChars_get (chars : List Byte) (i : Nat) (k : Vector Byte 8) (m : Nat) (hm : m < 8) :
    (storeChars chars i k)[m] = if i ≤ m ∧ m < i + chars.length then chars.getD (m - i) 0 else k[m] := by
  induction chars generalizing i k with
  | nil => simp [storeChars]
  | cons ch rest ih =>
    rw [storeChars, ih]
    simp only [List.length_cons, Vector.getElem_setIfInBounds]
    by_cases h1 : i = m
    · subst h1; simp
    · by_cases h2 : i + 1 ≤ m ∧ m < i + 1 + rest.length
      · rw [if_pos h2, if_pos (by omega), show m - i = (m - (i + 1)) + 1 by omega]; simp
      · rw [if_neg h2, if_neg (by omega), if_neg (by omega)]

end Sys2Proof.Machine
end

