-- ==== Sys2Proof/Laws/Image.lean ====
section
/-! SUPPORT. The laws of the image as data: every operation that makes or changes one keeps its canonical form, and a
patched image reads the patched byte at its offset and the old byte elsewhere. -/

namespace Sys2Proof.Machine

open Sys2Proof

/-- The canonical form allows a lower start. -/
theorem cellsWf_mono {lo lo' hi : Nat} {cells : List Host.Cell} (h : cellsWf lo hi cells = true) (hlo : lo' ≤ lo) :
    cellsWf lo' hi cells = true := by
  cases cells with
  | nil => rfl
  | cons cell rest =>
    obtain ⟨x, b⟩ := cell
    simp only [cellsWf, Bool.and_eq_true, decide_eq_true_eq] at h ⊢
    exact ⟨⟨⟨by omega, h.1.1.2⟩, h.1.2⟩, h.2⟩

/-- Replacing one byte keeps the canonical form. -/
theorem cellsWf_writeCell {lo hi off : Nat} (b : Byte) (hlo : lo ≤ off) (hhi : off < hi) :
    ∀ {cells : List Host.Cell}, cellsWf lo hi cells = true → cellsWf lo hi (writeCell off b cells) = true := by
  intro cells
  induction cells generalizing lo with
  | nil =>
    intro _
    by_cases hb : b = 0#8 <;> simp [writeCell, cellsWf, hb, hlo, hhi]
  | cons cell rest ih =>
    obtain ⟨x, c⟩ := cell
    intro h
    have hx := h
    simp only [cellsWf, Bool.and_eq_true, decide_eq_true_eq, bne_iff_ne] at hx
    obtain ⟨⟨⟨hlx, hxh⟩, hc⟩, hrest⟩ := hx
    by_cases h1 : x < off
    · simp only [writeCell, if_pos h1, cellsWf, Bool.and_eq_true, decide_eq_true_eq, bne_iff_ne]
      exact ⟨⟨⟨hlx, hxh⟩, hc⟩, ih (by omega) hrest⟩
    · by_cases h2 : x = off
      · subst h2
        by_cases hb : b = 0#8
        · simpa [writeCell, hb] using cellsWf_mono hrest (by omega)
        · simp [writeCell, hb, cellsWf, hlx, hxh, hrest]
      · have htail : cellsWf (off + 1) hi ((x, c) :: rest) = true := by
          simp only [cellsWf, Bool.and_eq_true, decide_eq_true_eq, bne_iff_ne]
          exact ⟨⟨⟨by omega, hxh⟩, hc⟩, hrest⟩
        by_cases hb : b = 0#8
        · simpa [writeCell, h1, h2, hb] using h
        · simp [writeCell, h1, h2, hb, cellsWf, hlo, hhi] at htail ⊢
          exact ⟨⟨⟨by omega, hxh⟩, hc⟩, hrest⟩

/-- `Image.patch` keeps the canonical form. -/
theorem Image.patch_wf {i : Image} (h : i.wf = true) (off : Nat) (b : Byte) : (i.patch off b).wf = true := by
  unfold Image.patch
  split
  · exact cellsWf_writeCell b (Nat.zero_le _) ‹_› h
  · exact h

/-- The cells of a byte sequence are in canonical form. -/
theorem cellsWf_cellsOfBytes {hi : Nat} :
    ∀ {bs : List Byte} {off : Nat}, off + bs.length ≤ hi → cellsWf off hi (cellsOfBytes off bs) = true := by
  intro bs
  induction bs with
  | nil => intros; rfl
  | cons b rest ih =>
    intro off h
    simp only [List.length_cons] at h
    have hr := ih (off := off + 1) (by omega)
    by_cases hb : b = 0#8
    · simpa [cellsOfBytes, hb] using cellsWf_mono hr (by omega)
    · simp [cellsOfBytes, hb, cellsWf, hr]
      omega

/-- An image made from bytes is in canonical form. -/
theorem imageOfBytes_wf (bs : List Byte) : (imageOfBytes bs).wf = true := by
  unfold imageOfBytes Image.wf
  refine cellsWf_cellsOfBytes ?_
  simp only [BitVec.toNat_ofNat]
  have : (bs.take 0xFFFFFFFF).length ≤ 0xFFFFFFFF := List.length_take_le _ _
  omega

/-- The empty image is in canonical form. -/
theorem Image.empty_wf : Image.empty.wf = true := rfl

/-- Below the first listed offset nothing is listed. -/
theorem lookupCell_below {lo hi off : Nat} :
    ∀ {cells : List Host.Cell}, cellsWf lo hi cells = true → off < lo → lookupCell cells off = 0#8 := by
  intro cells
  induction cells generalizing lo with
  | nil => intros; rfl
  | cons cell rest ih =>
    obtain ⟨x, b⟩ := cell
    intro h hoff
    simp only [cellsWf, Bool.and_eq_true, decide_eq_true_eq] at h
    rw [lookupCell, if_neg (by omega)]
    exact ih h.2 (by omega)

/-- Replacing one byte changes the byte at its offset and no other. -/
theorem lookupCell_writeCell {lo hi off : Nat} (b : Byte) (x : Nat) :
    ∀ {cells : List Host.Cell}, cellsWf lo hi cells = true →
      lookupCell (writeCell off b cells) x = if x = off then b else lookupCell cells x := by
  intro cells
  induction cells generalizing lo with
  | nil =>
    intro _
    by_cases hb : b = 0#8
    · simp [writeCell, hb, lookupCell]
    · by_cases hx : x = off
      · simp [writeCell, hb, lookupCell, hx]
      · simp [writeCell, hb, lookupCell, hx, Ne.symm hx]
  | cons cell rest ih =>
    obtain ⟨y, c⟩ := cell
    intro h
    simp only [cellsWf, Bool.and_eq_true, decide_eq_true_eq] at h
    have hrest := h.2
    by_cases h1 : y < off
    · simp only [writeCell, if_pos h1, lookupCell]
      by_cases hy : y = x
      · have : x ≠ off := by omega
        simp [hy, this]
      · rw [if_neg hy, if_neg hy]
        exact ih hrest
    · by_cases h2 : y = off
      · subst h2
        have hlow : lookupCell rest y = 0#8 := lookupCell_below hrest (by omega)
        by_cases hx : x = y
        · subst hx
          by_cases hb : b = 0#8 <;> simp [writeCell, hb, lookupCell, hlow]
        · by_cases hb : b = 0#8 <;> simp [writeCell, hb, lookupCell, hx, Ne.symm hx]
      · have hlow : ∀ z, z ≤ off → lookupCell ((y, c) :: rest) z = 0#8 := by
          intro z hz
          rw [lookupCell, if_neg (by omega)]
          exact lookupCell_below hrest (by omega)
        by_cases hx : x = off
        · subst hx
          by_cases hb : b = 0#8
          · simp [writeCell, h1, h2, hb, hlow x (Nat.le_refl x)]
          · simp [writeCell, h1, h2, hb, lookupCell]
        · by_cases hb : b = 0#8
          · simp [writeCell, h1, h2, hb, hx]
          · simp [writeCell, h1, h2, hb, lookupCell, hx, Ne.symm hx]

/-- Read after patch: the patched byte at its offset, the old byte elsewhere. -/
theorem Image.read_patch {i : Image} (h : i.wf = true) (off : Nat) (b : Byte) (hoff : off < i.len.toNat) (x : Nat) :
    (i.patch off b).read x = if x = off then some b else i.read x := by
  unfold Image.patch Image.read
  rw [if_pos hoff]
  simp only [lookupCell_writeCell b x h]
  by_cases hx : x = off
  · subst hx; simp [hoff]
  · simp [hx]

/-- The bytes an image made from bytes reads. -/
theorem lookupCell_cellsOfBytes (x : Nat) :
    ∀ (bs : List Byte) (off : Nat), lookupCell (cellsOfBytes off bs) x = if x < off then 0#8 else bs.getD (x - off) 0#8 := by
  intro bs
  induction bs with
  | nil => intro off; simp [cellsOfBytes, lookupCell]
  | cons b rest ih =>
    intro off
    by_cases hb : b = 0#8
    · simp only [cellsOfBytes, if_pos hb, ih]
      by_cases h1 : x < off
      · simp [h1, show x < off + 1 by omega]
      · by_cases h2 : x = off
        · subst h2; simp [hb]
        · rw [if_neg (by omega), if_neg h1, show x - off = (x - (off + 1)) + 1 by omega]; simp
    · simp only [cellsOfBytes, if_neg hb, lookupCell, ih]
      by_cases h2 : off = x
      · subst h2; simp
      · rw [if_neg h2]
        by_cases h1 : x < off
        · simp [h1, show x < off + 1 by omega]
        · rw [if_neg (by omega), if_neg h1, show x - off = (x - (off + 1)) + 1 by omega]; simp

end Sys2Proof.Machine
end

