-- ==== Sys2Proof/Laws/PerInstr.lean ====
section
/-! SUPPORT. What holds of every instruction as syntax, one lemma per constructor: the word of an instruction is one
of the two formats of spec/30_encoding.md R90 and its value fits the format's bits. -/

namespace Sys2Proof.Laws.EncodingFits

open Sys2Proof

/-- The word of an instruction has 8 or 48 bits and its value fits them (R90). -/
def Statement (i : Instr) : Prop :=
  ((encode i).1 = 8 ∨ (encode i).1 = 48) ∧ fitsBits (encode i).1 (encode i).2 = true

theorem nop : Statement .nop := ⟨.inl rfl, rfl⟩
theorem rst : Statement .rst := ⟨.inl rfl, rfl⟩
theorem enc6 : Statement .enc6 := ⟨.inl rfl, rfl⟩
theorem enc8 : Statement .enc8 := ⟨.inl rfl, rfl⟩
theorem dec : Statement .dec := ⟨.inl rfl, rfl⟩
theorem hdr : Statement .hdr := ⟨.inl rfl, rfl⟩
theorem rdp : Statement .rdp := ⟨.inl rfl, rfl⟩
theorem rdc : Statement .rdc := ⟨.inl rfl, rfl⟩
theorem rdr : Statement .rdr := ⟨.inl rfl, rfl⟩
theorem rdpa : Statement .rdpa := ⟨.inl rfl, rfl⟩
theorem rdca : Statement .rdca := ⟨.inl rfl, rfl⟩
theorem scans : Statement .scans := ⟨.inl rfl, rfl⟩
theorem scann : Statement .scann := ⟨.inl rfl, rfl⟩
theorem wr (reg : Byte) (data : Word) : Statement (.wr reg data) :=
  ⟨.inr rfl, decide_eq_true (writeWord reg data).isLt⟩
theorem rd (reg : Byte) : Statement (.rd reg) := ⟨.inr rfl, decide_eq_true (readWord reg).isLt⟩

end Sys2Proof.Laws.EncodingFits
end

