-- ==== Sys2Proof/Laws/Scanner.lean ====
section
/-! SUPPORT. What the scanner's shared functions can do (spec/42_scanner.md): the checks of SCANS, the comparison at
one location, the search of one pattern and the loop over the patterns. -/

namespace Sys2Proof.Machine

open Sys2Proof

/-- The lowest bad slot of the `n` from `j` on, or that all are legal (R162). -/
theorem State.badSlot_none {s : State} {n j : Nat} (h : s.badSlot n j = none) :
    ∀ i, j ≤ i → i < j + n → (s.slotAt i).lengthLegal = true := by
  induction n generalizing j with
  | zero => intros; omega
  | succ n ih =>
    unfold State.badSlot at h
    split at h
    · rename_i hl
      intro i h1 h2
      by_cases hi : i = j
      · exact hi ▸ hl
      · exact ih h i (by omega) (by omega)
    · simp at h

theorem State.badSlot_some {s : State} {n j m : Nat} (h : s.badSlot n j = some m) :
    j ≤ m ∧ m < j + n ∧ (s.slotAt m).lengthLegal = false ∧
      ∀ i, j ≤ i → i < m → (s.slotAt i).lengthLegal = true := by
  induction n generalizing j with
  | zero => simp [State.badSlot] at h
  | succ n ih =>
    unfold State.badSlot at h
    split at h
    · rename_i hl
      obtain ⟨h1, h2, h3, h4⟩ := ih h
      refine ⟨by omega, by omega, h3, fun i hi hm => ?_⟩
      by_cases hij : i = j
      · exact hij ▸ hl
      · exact h4 i (by omega) hm
    · rename_i hl
      simp at h
      subst h
      exact ⟨Nat.le_refl _, by omega, by simpa using hl, by intro i h1 h2; omega⟩

/-- What SCANS can do after the header (R162). -/
theorem State.startScan_cases (s : State) :
    (8 < s.np.toNat ∧ s.startScan = .error (.badNp s.np)) ∨
    (s.np.toNat ≤ 8 ∧ ∃ j, s.badSlot s.np.toNat 0 = some j ∧ s.startScan = .error (.badPattern j)) ∨
    (s.np.toNat ≤ 8 ∧ s.badSlot s.np.toNat 0 = none ∧
      s.startScan = .ok { s with ss := .active, sj := 0, sp := 0, fnd := false }) := by
  unfold State.startScan
  by_cases h : 8 < s.np.toNat
  · exact .inl ⟨h, by simp [h]⟩
  · refine .inr ?_
    rw [if_neg h]
    cases hb : s.badSlot s.np.toNat 0 with
    | some j => exact .inl ⟨by omega, j, rfl, rfl⟩
    | none => exact .inr ⟨by omega, rfl, rfl⟩

/-- A comparison fails only by an I/O failure (R163). -/
theorem State.bytesAt_error {s : State} {pattern : List Byte} {off : Nat} {e : CmdError}
    (h : s.bytesAt pattern off = .error e) : e = .ioFailure ∧ ∃ x, s.ioFails x = true := by
  induction pattern generalizing off with
  | nil => simp [State.bytesAt] at h
  | cons b rest ih =>
    unfold State.bytesAt at h
    rcases s.memRead_cases off with ⟨hf, hr⟩ | ⟨_, hr⟩
    · rw [hr] at h; simp at h; exact ⟨h.symm, off, hf⟩
    · rw [hr] at h
      by_cases hb : s.imgByte off = some b
      · simp [hb] at h; exact ih h
      · simp [hb] at h

/-- A comparison answers whether every byte stands at its offset (R160). -/
theorem State.bytesAt_ok {s : State} {pattern : List Byte} {off : Nat} {r : Bool}
    (h : s.bytesAt pattern off = .ok r) :
    r = true ↔ ∀ k, ∀ hk : k < pattern.length, s.imgByte (off + k) = some pattern[k] := by
  induction pattern generalizing off with
  | nil => simp [State.bytesAt] at h; simp [← h]
  | cons b rest ih =>
    unfold State.bytesAt at h
    rcases s.memRead_cases off with ⟨hf, hr⟩ | ⟨_, hr⟩
    · rw [hr] at h; simp at h
    · rw [hr] at h
      by_cases hb : s.imgByte off = some b
      · simp [hb] at h
        rw [ih h]
        constructor
        · intro hall k hk
          cases k with
          | zero => simpa using hb
          | succ k =>
            have := hall k (by simpa using hk)
            rw [Nat.add_right_comm] at this
            simpa [Nat.add_assoc] using this
        · intro hall k hk
          have := hall (k + 1) (by simpa using hk)
          rw [Nat.add_right_comm]
          simpa [Nat.add_assoc] using this
      · simp [hb] at h
        subst h
        simp only [Bool.false_eq_true, false_iff]
        intro hall
        exact hb (hall 0 (Nat.zero_lt_succ _))

/-- Without I/O failures a comparison answers. -/
theorem State.bytesAt_total {s : State} (hf : s.NoIoFailure) (pattern : List Byte) (off : Nat) :
    ∃ r, s.bytesAt pattern off = .ok r := by
  cases h : s.bytesAt pattern off with
  | ok r => exact ⟨r, rfl⟩
  | error e =>
    obtain ⟨_, x, hx⟩ := State.bytesAt_error h
    rw [hf x] at hx
    cases hx

/-- A search fails only by an I/O failure. -/
theorem State.firstHit_error {s : State} {pattern : List Byte} {n h : Nat} {e : CmdError}
    (hh : s.firstHit pattern n h = .error e) : e = .ioFailure ∧ ∃ x, s.ioFails x = true := by
  induction n generalizing h with
  | zero => simp [State.firstHit] at hh
  | succ n ih =>
    unfold State.firstHit at hh
    cases hb : s.bytesAt pattern (s.poff.toNat + h) with
    | error e' => rw [hb] at hh; simp at hh; subst hh; exact State.bytesAt_error hb
    | ok r =>
      cases r with
      | true => simp [hb] at hh
      | false => simp [hb] at hh; exact ih hh

/-- A search answers the least location of the `n` from `h` on at which the pattern stands, or that there is none
(R160). -/
theorem State.firstHit_ok {s : State} {pattern : List Byte} {n h : Nat} {r : Option Nat}
    (hh : s.firstHit pattern n h = .ok r) :
    match r with
    | some m => h ≤ m ∧ m < h + n ∧ s.bytesAt pattern (s.poff.toNat + m) = .ok true ∧
        ∀ i, h ≤ i → i < m → s.bytesAt pattern (s.poff.toNat + i) = .ok false
    | none => ∀ i, h ≤ i → i < h + n → s.bytesAt pattern (s.poff.toNat + i) = .ok false := by
  induction n generalizing h with
  | zero => simp [State.firstHit] at hh; subst hh; intro i h1 h2; omega
  | succ n ih =>
    unfold State.firstHit at hh
    cases hb : s.bytesAt pattern (s.poff.toNat + h) with
    | error e => simp [hb] at hh
    | ok b =>
      cases b with
      | true =>
        simp [hb] at hh
        subst hh
        exact ⟨Nat.le_refl _, by omega, hb, by intro i h1 h2; omega⟩
      | false =>
        simp [hb] at hh
        have := ih hh
        cases r with
        | some m =>
          obtain ⟨h1, h2, h3, h4⟩ := this
          refine ⟨by omega, by omega, h3, fun i hi hm => ?_⟩
          by_cases hih : i = h
          · exact hih ▸ hb
          · exact h4 i (by omega) hm
        | none =>
          intro i hi hm
          by_cases hih : i = h
          · exact hih ▸ hb
          · exact this i (by omega) (by omega)

/-- The loop over the patterns ends at the first pattern with a hit, or past the last one (R163). -/
theorem State.seekHit_ok {s : State} {n j start : Nat} {r : ScanOutcome} (hh : s.seekHit n j start = .ok r) :
    match r with
    | .hit i h => j ≤ i ∧ i < j + n ∧ s.nextHit i (if i = j then start else 0) = .ok (some h) ∧
        ∀ m, j ≤ m → m < i → s.nextHit m (if m = j then start else 0) = .ok none
    | .exhausted i => i = j + n ∧
        ∀ m, j ≤ m → m < j + n → s.nextHit m (if m = j then start else 0) = .ok none := by
  induction n generalizing j start with
  | zero => simp [State.seekHit] at hh; subst hh; exact ⟨rfl, by intro m h1 h2; omega⟩
  | succ n ih =>
    unfold State.seekHit at hh
    cases hn : s.nextHit j start with
    | error e => simp [hn] at hh
    | ok o =>
      cases o with
      | some h =>
        simp [hn] at hh
        subst hh
        exact ⟨Nat.le_refl _, by omega, by simpa using hn, by intro m h1 h2; omega⟩
      | none =>
        simp [hn] at hh
        have := ih hh
        cases r with
        | hit i h =>
          obtain ⟨h1, h2, h3, h4⟩ := this
          refine ⟨by omega, by omega, ?_, fun m hm1 hm2 => ?_⟩
          · rw [if_neg (by omega)]
            by_cases hi : i = j + 1 <;> simpa [hi] using h3
          · by_cases hm : m = j
            · subst hm; simpa using hn
            · rw [if_neg hm]
              have := h4 m (by omega) hm2
              by_cases hi : m = j + 1 <;> simpa [hi] using this
        | exhausted i =>
          obtain ⟨h1, h4⟩ := this
          refine ⟨by omega, fun m hm1 hm2 => ?_⟩
          by_cases hm : m = j
          · subst hm; simpa using hn
          · rw [if_neg hm]
            have := h4 m (by omega) (by omega)
            by_cases hi : m = j + 1 <;> simpa [hi] using this

/-- The loop over the patterns fails only by an I/O failure (R163). -/
theorem State.seekHit_error {s : State} {n j start : Nat} {e : CmdError} (hh : s.seekHit n j start = .error e) :
    e = .ioFailure ∧ ∃ x, s.ioFails x = true := by
  induction n generalizing j start with
  | zero => simp [State.seekHit] at hh
  | succ n ih =>
    unfold State.seekHit at hh
    cases hn : s.nextHit j start with
    | error e' => simp [hn] at hh; subst hh; exact State.firstHit_error hn
    | ok o =>
      cases o with
      | some h => simp [hn] at hh
      | none => simp [hn] at hh; exact ih hh

/-- What SCANN can do, by scan state (R163). -/
theorem State.scanNext_cases (s : State) :
    (s.ss = .idle ∧ s.scanNext = .error .noScan) ∨
    (s.ss = .done ∧ s.scanNext = .ok { s with fnd := false }) ∨
    (s.ss = .active ∧
      ((s.scanNext = .error .ioFailure ∧ ∃ x, s.ioFails x = true) ∨
       (∃ j h, s.seekHit (s.activeSlots - s.sj.toNat) s.sj.toNat s.sp.toNat = .ok (.hit j h) ∧
          s.scanNext = .ok (s.fillSnap.reportHit j h)) ∨
       (∃ j, s.seekHit (s.activeSlots - s.sj.toNat) s.sj.toNat s.sp.toNat = .ok (.exhausted j) ∧
          s.scanNext = .ok (s.fillSnap.reportExhausted j)))) := by
  unfold State.scanNext
  cases hs : s.ss with
  | idle => exact .inl ⟨rfl, rfl⟩
  | done => exact .inr (.inl ⟨rfl, rfl⟩)
  | active =>
    refine .inr (.inr ⟨rfl, ?_⟩)
    cases hk : s.seekHit (s.activeSlots - s.sj.toNat) s.sj.toNat s.sp.toNat with
    | error e =>
      obtain ⟨he, hx⟩ := State.seekHit_error hk
      exact .inl ⟨by simp [he], hx⟩
    | ok o =>
      cases o with
      | hit j h => exact .inr (.inl ⟨j, h, rfl, by simp⟩)
      | exhausted j => exact .inr (.inr ⟨j, rfl, by simp⟩)

end Sys2Proof.Machine
end

