-- ==== Sys2Proof/Laws/System.lean ====
section
/-! SUPPORT. What command dispatch and the bus transactions can do (spec/43_system.md), and the fields of the bus
words the host writes (spec/30_encoding.md R94). -/

namespace Sys2Proof.Machine

open Sys2Proof

/-- The opcode decoder answers only commands, each for its own opcode (R92). -/
theorem opcode_of_decodeCmd8 {op : Byte} {i : Instr} (h : decodeCmd8 op = .ok i) : opcode? i = some op := by
  have key : ∀ op : Byte,
      (match decodeCmd8 op with | .ok i => decide (opcode? i = some op) | .error _ => true) = true := by decide
  have := key op
  rw [h] at this
  simpa using this

/-- Dispatch runs the command of the opcode or performs the error entry (R93, R184). -/
theorem runCommand_cases (op : Byte) (s : State) :
    (∃ i, opcode? i = some op ∧ runCommand op s = exec i s) ∨
    runCommand op s = .next (s.raise (.reservedOpcode op)) := by
  unfold runCommand
  cases h : decodeCmd8 op with
  | error e => exact .inr rfl
  | ok i =>
    have h' := opcode_of_decodeCmd8 h
    cases i
    case wr => simp [opcode?] at h'
    case rd => simp [opcode?] at h'
    all_goals exact .inl ⟨_, h', rfl⟩

/-- What a bus write can do (R180). -/
theorem execWr_cases (reg : Byte) (data : Word) (s : State) :
    (regOfNumber reg = none ∧ execWr reg data s = .next (s.raise (.badReg reg))) ∨
    (regOfNumber reg = some .cmd ∧ execWr reg data s = runCommand (data.setWidth 8) s) ∨
    (∃ r, r ≠ .cmd ∧ regOfNumber reg = some r ∧ execWr reg data s = .next (s.writeReg r data)) := by
  unfold execWr
  cases h : regOfNumber reg with
  | none => exact .inl ⟨rfl, rfl⟩
  | some r =>
    refine .inr ?_
    cases r
    case cmd => exact .inl ⟨rfl, rfl⟩
    all_goals exact .inr ⟨_, by simp, rfl, rfl⟩

/-- What a bus read can do (R181). -/
theorem execRd_cases (reg : Byte) (s : State) :
    (regOfNumber reg = none ∧ execRd reg s = .next { s.raise (.badReg reg) with reply := some 0 }) ∨
    (∃ r, regOfNumber reg = some r ∧ execRd reg s = .next { s with reply := some (s.readReg r) }) := by
  unfold execRd
  cases h : regOfNumber reg with
  | none => exact .inl ⟨rfl, rfl⟩
  | some r => exact .inr ⟨r, rfl, rfl⟩

/-- The number of two bit strings joined. -/
theorem toNat_append_eq {m n : Nat} (x : BitVec m) (y : BitVec n) : (x ++ y).toNat = x.toNat * 2 ^ n + y.toNat := by
  rw [BitVec.toNat_append, Nat.shiftLeft_eq, Nat.mul_comm, ← Nat.two_pow_add_eq_or_of_lt y.isLt]

/-- The number of a write's word: bit 47, the register number in 39:32, the data (R94). -/
theorem writeWord_toNat (reg : Byte) (data : Word) :
    (writeWord reg data).toNat = 2 ^ 47 + reg.toNat * 2 ^ 32 + data.toNat := by
  refine (toNat_append_eq (m := 16) (n := 32) _ _).trans ?_
  rw [toNat_append_eq]
  simp only [BitVec.toNat_ofNat]
  omega

/-- The number of a read's word (R94). -/
theorem readWord_toNat (reg : Byte) : (readWord reg).toNat = reg.toNat * 2 ^ 32 := by
  refine (toNat_append_eq (m := 16) (n := 32) _ _).trans ?_
  rw [toNat_append_eq]
  simp

end Sys2Proof.Machine
end

