-- ==== Sys2Proof/Tests/Slice0.lean ====
section
/-! SUPPORT. Tests of the model: ill-formed words, a written-out word for every constructor, at most two steps per
instruction with the results that spec/95_test_vectors.md gives, and for every obligation with hypotheses a witness that
meets them all. -/

namespace Sys2Proof.Machine.Tests

open Sys2Proof

/-! ### States -/

/-- Whether a command goes on to a state with this property. -/
def onNext (r : Result) (p : State → Bool) : Bool :=
  match r with
  | .next t    => p t
  | .fault _   => false
  | .refused _ => false

/-- Whether a host program ends with this result. -/
def returns {α : Type} [DecidableEq α] (m : HostProgram α) (s : State) (x : α) : Bool :=
  match m s with
  | .ok (y, _) => y = x
  | .error _   => false

/-- One PRG and one CHR bank, whole: PRG byte 0x0101 is 0x41, PRG byte 0x3FFF is 0xA9, CHR byte 0x0101 is 0x7E. -/
def cart : Image := ⟨0x6010, [(4, 1), (5, 1), (0x111, 0x41), (0x400F, 0xA9), (0x4111, 0x7E)]⟩

/-- An image that promises one PRG bank and ends after 7 bytes of it: `00 A9 41 8D A9 41 8D`. -/
def stub : Image := ⟨23, [(4, 1), (17, 0xA9), (18, 0x41), (19, 0x8D), (20, 0xA9), (21, 0x41), (22, 0x8D)]⟩

/-- After reset, with an image attached. -/
def attached (image : Image) : State := { State.reset with img := image }

/-- With the header of `cart` parsed. -/
def parsed : State := { attached cart with prgn := 1, chrn := 1, poff := 16, hv := true }

/-- A slot that holds the pattern `A9 41 8D` with offset `po` (R28). -/
def idiomSlot (po : Word) : Slot := ⟨(Slot.zero.pb.set 0 0xA9).set 1 0x41 |>.set 2 0x8D, 3, po⟩

/-- With the header of `stub` parsed and one pattern in the table. -/
def table : State :=
  { attached stub with prgn := 1, poff := 16, hv := true, np := 1, slots := State.reset.slots.set 0 (idiomSlot 1) }

/-- With a scan of `table` started. -/
def scanning : State := { table with ss := .active }

/-- With patch operands. -/
def patch (a v c : Word) : State := { State.reset with a := a, v := v, c := c }

/-- With a code in the cells. -/
def coded (chars : List Byte) (kl : BitVec 4) : State := { State.reset with k := storeChars chars 0 State.reset.k, kl := kl }

/-- `SXIOPO` (R95). -/
def sxiopo : List Byte := [0x53, 0x58, 0x49, 0x4F, 0x50, 0x4F]

/-- `LTEAPPPG` (R95). -/
def lteapppg : List Byte := [0x4C, 0x54, 0x45, 0x41, 0x50, 0x50, 0x50, 0x47]

/-! ### Ill-formed words -/

/-- Check 1 of WellFormed refuses a nonzero field `zero`. -/
theorem test_zero_field_refused : BusWord.wellFormed 0x810800000001 = false := by decide
/-- Check 2 refuses a read with data. -/
theorem test_read_data_refused : BusWord.wellFormed 0x000800000001 = false := by decide
/-- A value too wide for its bits. -/
theorem test_too_wide_refused : fitsBits 8 0x100 = false := by decide
theorem test_decode_refuses_by_name :
    decodeBits 48 0x810800000001 = .error (.zeroField 0x810800000001) ∧
    decodeBits 48 0x000800000001 = .error (.readData 0x000800000001) ∧
    decodeBits 8 0x02 = .error (.reservedOpcode 0x02) ∧
    decodeBits 8 0x101 = .error (.tooWide 8 0x101) ∧
    decodeBits 16 0x01 = .error (.noFormat 16) := by decide

/-! ### Decoding: one word written out for every constructor (R92, R94) -/

theorem test_decode_system : decodeTableWord 8 0b00000000 = some .nop ∧ decodeTableWord 8 0b00000001 = some .rst := by
  decide
theorem test_decode_codec :
    decodeTableWord 8 0b00010000 = some .enc6 ∧ decodeTableWord 8 0b00010001 = some .enc8 ∧
    decodeTableWord 8 0b00010010 = some .dec := by decide
theorem test_decode_reader :
    decodeTableWord 8 0b00100000 = some .hdr ∧ decodeTableWord 8 0b00100001 = some .rdp ∧
    decodeTableWord 8 0b00100010 = some .rdc ∧ decodeTableWord 8 0b00100011 = some .rdr ∧
    decodeTableWord 8 0b00100100 = some .rdpa ∧ decodeTableWord 8 0b00100101 = some .rdca := by decide
theorem test_decode_scanner :
    decodeTableWord 8 0b00110000 = some .scans ∧ decodeTableWord 8 0b00110001 = some .scann := by decide
/-- `WR C, 0xAD` and `RD K7`, bit by bit: `w`, `zero`, `reg`, `data`. -/
theorem test_decode_bus :
    decodeTableWord 48 0b1_0000000_00001010_00000000000000000000000010101101 = some (.wr 0x0A#8 0xAD#32) ∧
    decodeTableWord 48 0b0_0000000_00010111_00000000000000000000000000000000 = some (.rd 0x17#8) := by decide

/-! ### One step per instruction -/

theorem test_step_fetches_a_command : step (State.reset.withFetchWord 8 0x25) = exec .rdca State.reset := rfl
theorem test_step_fetches_a_write :
    onNext (step (State.reset.withFetchWord 48 0x8008000091D9)) (fun t => t.a == 0x91D9) = true := by decide
theorem test_nop_clears_err : onNext (exec .nop { State.reset with err := 3, estk := 8 })
    (fun t => t.err == 0 && t.estk == 8) = true := by decide
theorem test_rst_keeps_image : onNext (exec .rst scanning) (fun t => t.ss == .idle && t.img == stub) = true := by decide
/-- 95_test_vectors.md 2.1: 91D9, AD gives `SXIOPO`. -/
theorem test_enc6_vector : onNext (exec .enc6 (patch 0x91D9 0xAD 0))
    (fun t => t.k.toList.take 6 == sxiopo && t.kl == 6) = true := by decide
/-- 2.4: just above the window, ADDRESS. -/
theorem test_enc6_address : onNext (exec .enc6 (patch 0x10000 0 0))
    (fun t => t.err == 2 && t.einfo == 0x0001) = true := by decide
/-- 2.1: 8101, 63, 41 gives `LTEAPPPG`. -/
theorem test_enc8_vector : onNext (exec .enc8 (patch 0x8101 0x63 0x41))
    (fun t => t.k.toList == lteapppg && t.kl == 8) = true := by decide
/-- 2.4: value reported before compare. -/
theorem test_enc8_value_first : onNext (exec .enc8 (patch 0x8000 0x100 0x100))
    (fun t => t.einfo == 0x0002 && t.estk == 0x04) = true := by decide
/-- 2.3: `LTEAPPPG` decodes to 8101, 63, 41. -/
theorem test_dec_vector : onNext (exec .dec (coded lteapppg 8))
    (fun t => t.a == 0x8101 && t.v == 0x63 && t.c == 0x41 && t.cp) = true := by decide
/-- 2.4: `SXIoPO`, BAD_CHAR at index 3. -/
theorem test_dec_bad_char : onNext (exec .dec (coded (sxiopo.set 3 0x6F) 6))
    (fun t => t.err == 1 && t.einfo == 0x0302) = true := by decide
theorem test_hdr_parses : onNext (exec .hdr (attached cart))
    (fun t => t.prgn == 1 && t.chrn == 1 && t.poff == 0x10 && t.flags == 0x08) = true := by decide
/-- R141: `IMGLEN = 15` fails. -/
theorem test_hdr_short : onNext (exec .hdr (attached ⟨15, []⟩)) (fun t => t.einfo == 0x0001 && !t.hv) = true := by decide
/-- 3.4: the last byte of a PRG bank; the header is parsed on the way. -/
theorem test_rdp_last_byte : onNext (exec .rdp { attached cart with bo := 0x3FFF })
    (fun t => t.d == 0xA9 && t.hv) = true := by decide
/-- 3.4: bank index 0x1234 is reported as 255. -/
theorem test_rdp_bank_index : onNext (exec .rdp { parsed with bi := 0x1234 }) (fun t => t.einfo == 0xFF02) = true := by
  decide
theorem test_rdc_byte : onNext (exec .rdc { parsed with bo := 0x0101 }) (fun t => t.d == 0x7E) = true := by decide
theorem test_rdc_offset : onNext (exec .rdc { parsed with bo := 0x2000 }) (fun t => t.einfo == 0x0005) = true := by decide
/-- 3.4: at the end of the region, although the image has CHR bytes there. -/
theorem test_rdr_end : onNext (exec .rdr { parsed with bo := 0x4000, d := 7 })
    (fun t => t.eoff && t.d == 7 && t.err == 0) = true := by decide
theorem test_rdr_byte : onNext (exec .rdr { parsed with bo := 0x3FFF }) (fun t => t.d == 0xA9 && !t.eoff) = true := by decide
/-- 3.4: C101 mod 4000 = 0101. -/
theorem test_rdpa_byte : onNext (exec .rdpa { parsed with a := 0xC101 }) (fun t => t.d == 0x41) = true := by decide
theorem test_rdpa_end_of_image : onNext (exec .rdpa { table with a := 0xFFFF }) (fun t => t.eoff && t.err == 0) = true := by
  decide
theorem test_rdca_byte : onNext (exec .rdca { parsed with a := 0xE101 }) (fun t => t.d == 0x7E) = true := by decide
theorem test_rdca_address : onNext (exec .rdca parsed) (fun t => t.err == 2 && t.einfo == 0x0001) = true := by decide
theorem test_scans_starts : onNext (exec .scans table) (fun t => t.ss == .active && t.err == 0) = true := by decide
theorem test_scans_bad_pattern : onNext (exec .scans { table with np := 2 })
    (fun t => t.einfo == 0x0103 && t.ss == .idle) = true := by decide
/-- The first hit of `A9 41 8D` in `00 A9 41 8D ...` is at 1, the candidate (1 + 1) + 8000. -/
theorem test_scann_hit : onNext (exec .scann scanning)
    (fun t => t.fnd && t.hl == 1 && t.a == 0x8002 && t.sp == 4 && t.snap == some stub) = true := by decide
theorem test_scann_exhausted : onNext (exec .scann { scanning with sp := 5 })
    (fun t => !t.fnd && t.ss == .done && t.sj == 1 && t.sp == 0) = true := by decide
/-- R35: `KL` keeps the low 4 bits. -/
theorem test_wr_low_bits : onNext (exec (.wr 0x0B 0x16) State.reset) (fun t => t.kl == 6) = true := by decide
theorem test_wr_abandons_scan : onNext (exec (.wr 0x49 0) scanning) (fun t => t.ss == .idle) = true := by decide
theorem test_rd_flags : onNext (exec (.rd 0x04) scanning) (fun t => t.reply == some 0x18) = true := by decide
/-- R36: an unmapped number. -/
theorem test_rd_unmapped : onNext (exec (.rd 0xBA) State.reset)
    (fun t => t.reply == some 0 && t.err == 4 && t.einfo == 0xBA02) = true := by decide

/-! ### Host sequences -/

theorem test_decode_sequence : returns (decodeCode sxiopo) State.reset ⟨0x91D9, 0xAD, none⟩ = true := by decide +kernel
/-- 95_test_vectors.md 2.1: 91D9, 01, AD gives `PESOPOSZ`. -/
theorem test_reencode_sequence : returns (reencode sxiopo 0x01 (some 0xAD)) State.reset
    [0x50, 0x45, 0x53, 0x4F, 0x50, 0x4F, 0x53, 0x5A] = true := by decide +kernel

/-- The seven table entries of 93_implementation_defined.md G2. -/
def table6502 : Mnemonic → AddrMode → TableEntry
  | .lda, _         => ⟨0xA9, 1, false, false⟩
  | .sta, .zeroPage => ⟨0x85, 1, false, false⟩
  | .sta, _         => ⟨0x8D, 2, true, false⟩
  | .ldx, _         => ⟨0xA2, 1, false, false⟩
  | .stx, _         => ⟨0x8E, 2, true, false⟩
  | .ldy, _         => ⟨0xA0, 1, false, false⟩
  | .sty, _         => ⟨0x8C, 2, true, false⟩

/-- A host with `MATCH_OFF` at its value of R6 and no decrement idiom. -/
def seeker : HostParams := { itab := table6502, decset := fun _ => pure [] }

/-- Whether a host program ends with the typed failure of a command. -/
def failsWith {α : Type} (m : HostProgram α) (s : State) (err einfo : Word) : Bool :=
  match m s with
  | .error (.typed e i) => e == err && i == einfo
  | .error .stopped     => false
  | .error .outOfBudget => false
  | .ok _               => false

/-- R198, R201: the operand bytes of the two hits in `stub` are at 2 and 5, so the addresses are 8002 and 8005. -/
theorem test_seek_finds_the_operand_bytes : returns (seek seeker 0x41 0x63 false false false) (attached stub)
    [codeOfPatch ⟨0x8002, 0x63, some 0x41⟩, codeOfPatch ⟨0x8005, 0x63, some 0x41⟩] = true := by decide +kernel
/-- R205: a target above 255 ends SEEK with COMPARE, a `write` above 255 with VALUE. -/
theorem test_seek_range_errors :
    failsWith (seek seeker 0x141 0x63 false false false) (attached stub) 2 0x0003 = true ∧
    failsWith (seek seeker 0x41 0x163 false true false) (attached stub) 2 0x0002 = true := by decide +kernel

/-! ### Witnesses: what meets the hypotheses of each obligation, clause by clause, at a boundary of its range -/

theorem witness_StepRunsTheDecodedInstruction :
    (parsed.withFetchWord 8 0x21).script = .bus 0x800000000021 :: [] ∧
    decodeBus48 0x800000000021 = .ok (.wr 0x00 0x21) ∧
    decodeBus48 0x010000000000 = .error (.zeroField 0x010000000000) ∧
    ({ State.reset with script := [.reset stub] } : State).script = .reset stub :: [] ∧
    State.reset.script = [] := ⟨rfl, by decide, by decide, rfl, rfl⟩
theorem witness_WriteToCmdRunsTheCommand : opcode? .rdca = some 0x25#8 ∧ (0xFFFFFF25#32).setWidth 8 = 0x25#8 := by decide
theorem witness_ReservedOpcodesAreIllegalCommands :
    decodeCmd8 0x31 = .ok .scann ∧
    (0x02#32).toNat % 256 ∉ [0x00, 0x01, 0x10, 0x11, 0x12, 0x20, 0x21, 0x22, 0x23, 0x24, 0x25, 0x30, 0x31] ∧
    (0x1FF#32).toNat % 256 ∉ [0x00, 0x01, 0x10, 0x11, 0x12, 0x20, 0x21, 0x22, 0x23, 0x24, 0x25, 0x30, 0x31] := ⟨rfl, by simp⟩
theorem witness_RegisterMapIsOneToOne :
    regOfNumber 0x04 = some .flags ∧ regOfNumber 0x17 = some (.k 7) ∧ regOfNumber 0xB9 = some (.po 7) := by decide
theorem witness_WriteStoresTheLowBits :
    regOfNumber 0x0B = some .kl ∧ regAccess .kl = .rw ∧ regOfNumber 0xB7 = some (.pb 7 7) ∧
    regAccess (.pb 7 7) = .rw := by decide
theorem witness_WriteToReadOnlyIsIgnored : regOfNumber 0x2C = some .sj ∧ regAccess .sj = .ro := by decide
theorem witness_UnmappedNumberIsIllegalCommand : ∀ n ∈ [0x05#8, 0x3F#8, 0x4A#8, 0xBA#8, 0xFF#8], regOfNumber n = none := by
  decide
theorem witness_ReadReturnsTheRegister : regOfNumber 0x00 = some .cmd ∧ regOfNumber 0x48 = some (.plen 0) := by decide
theorem witness_PatternTableWriteAbandonsTheScan :
    regOfNumber 0x28 = some .np ∧ inPatternTable .np = true ∧ regOfNumber 0x40 = some (.pb 0 0) ∧
    inPatternTable (.pb 0 0) = true := by decide
theorem witness_RstZeroesEveryRegister :
    ({ scanning with script := [.reset cart] } : State).script = .reset cart :: [] ∧
    scanning = { ({ scanning with script := [.reset cart] } : State) with script := [], reply := none } := ⟨rfl, rfl⟩
theorem witness_AlphabetHasSixteenSymbols : nibOf 0x41 = some 0 ∧ nibOf 0x4E = some 15 := by decide
theorem witness_KnownVector : (patch 0x8000 0 0).a = 0x8000 ∧ (patch 0x8000 0 0).v = 0 ∧ (patch 0x8000 0 0).c = 0 := by decide
theorem witness_Enc6StoresTheSixCharacterCode :
    0x8000 ≤ (patch 0xFFFF 0xFF 0x100).a.toNat ∧ (patch 0xFFFF 0xFF 0x100).a.toNat ≤ 0xFFFF ∧
    (patch 0xFFFF 0xFF 0x100).v.toNat ≤ 0xFF := by decide
theorem witness_Enc8StoresTheEightCharacterCode :
    0x8000 ≤ (patch 0x8000 0 0xFF).a.toNat ∧ (patch 0x8000 0 0xFF).a.toNat ≤ 0xFFFF ∧
    (patch 0x8000 0 0xFF).v.toNat ≤ 0xFF ∧ (patch 0x8000 0 0xFF).c.toNat ≤ 0xFF := by decide
theorem witness_EncodeReportsTheFirstOperandOutOfRange :
    (patch 0x7FFF 0 0).a.toNat < 0x8000 ∧ 0xFFFF < (patch 0x10000 0 0).a.toNat ∧
    (0x8000 ≤ (patch 0x8000 0x100 0).a.toNat ∧ (patch 0x8000 0x100 0).a.toNat ≤ 0xFFFF ∧
      0xFF < (patch 0x8000 0x100 0).v.toNat) ∧
    (0x8000 ≤ (patch 0xFFFF 0xFF 0x100).a.toNat ∧ (patch 0xFFFF 0xFF 0x100).a.toNat ≤ 0xFFFF ∧
      (patch 0xFFFF 0xFF 0x100).v.toNat ≤ 0xFF ∧ 0xFF < (patch 0xFFFF 0xFF 0x100).c.toNat) := by decide
theorem witness_DecDecodesSixCharacters :
    (coded sxiopo 6).kl = 6 ∧ (coded sxiopo 6).k[0] = alphaChar 0xD ∧ (coded sxiopo 6).k[1] = alphaChar 0xA ∧
    (coded sxiopo 6).k[2] = alphaChar 5 ∧ (coded sxiopo 6).k[3] = alphaChar 9 ∧ (coded sxiopo 6).k[4] = alphaChar 1 ∧
    (coded sxiopo 6).k[5] = alphaChar 9 := by decide
theorem witness_DecDecodesEightCharacters :
    (coded lteapppg 8).kl = 8 ∧ (coded lteapppg 8).k[0] = alphaChar 3 ∧ (coded lteapppg 8).k[1] = alphaChar 6 ∧
    (coded lteapppg 8).k[2] = alphaChar 8 ∧ (coded lteapppg 8).k[3] = alphaChar 0 ∧ (coded lteapppg 8).k[4] = alphaChar 1 ∧
    (coded lteapppg 8).k[5] = alphaChar 1 ∧ (coded lteapppg 8).k[6] = alphaChar 1 ∧
    (coded lteapppg 8).k[7] = alphaChar 4 := by decide
theorem witness_DecReportsLengthThenFirstBadCharacter :
    (coded sxiopo 7).kl ≠ 6 ∧ (coded sxiopo 7).kl ≠ 8 ∧
    ((coded (lteapppg.set 7 0x20) 8).kl = 6 ∨ (coded (lteapppg.set 7 0x20) 8).kl = 8) ∧
    (7 : Fin 8).val < (coded (lteapppg.set 7 0x20) 8).kl.toNat ∧ nibOf (coded (lteapppg.set 7 0x20) 8).k[(7 : Fin 8)] = none ∧
    ∀ j : Fin 8, j < 7 → nibOf (coded (lteapppg.set 7 0x20) 8).k[j] ≠ none := by decide
theorem witness_EncodeThenDecodeGivesThePatch :
    0x8000 ≤ (patch 0x8000 0xFF 0xFF).a.toNat ∧ (patch 0x8000 0xFF 0xFF).a.toNat ≤ 0xFFFF ∧
    (patch 0x8000 0xFF 0xFF).v.toNat ≤ 0xFF ∧ (patch 0x8000 0xFF 0xFF).c.toNat ≤ 0xFF := by decide
theorem witness_DecodeThenEncodeForcesTheLengthFlag :
    (∃ t, exec .dec (coded sxiopo 6) = .next t ∧ t.err = 0) ∧ ∃ t, exec .dec (coded lteapppg 8) = .next t ∧ t.err = 0 :=
  ⟨⟨_, rfl, rfl⟩, ⟨_, rfl, rfl⟩⟩
theorem witness_EncodeIsInjective :
    (∃ t, exec .enc6 (patch 0x8000 0 0) = .next t ∧ t.err = 0) ∧ ∃ t, exec .enc8 (patch 0xFFFF 0xFF 0xFF) = .next t ∧ t.err = 0 :=
  ⟨⟨_, rfl, rfl⟩, ⟨_, rfl, rfl⟩⟩
theorem witness_HdrParsesTheHeader :
    (attached ⟨16, []⟩).SnapInv ∧ (attached ⟨16, []⟩).hv = false ∧ 16 ≤ (attached ⟨16, []⟩).img.len.toNat ∧
    (attached ⟨16, []⟩).ioFails 4 = false ∧ (attached ⟨16, []⟩).ioFails 5 = false ∧ (attached ⟨16, []⟩).ioFails 6 = false :=
  ⟨.inl rfl, rfl, by decide, rfl, rfl, rfl⟩
theorem witness_HdrWithCachedHeaderReReadsNothing : parsed.hv = true := rfl
theorem witness_ShortImageFailsEveryHeaderParse :
    (attached ⟨15, []⟩).hv = false ∧ (attached ⟨15, []⟩).img.len.toNat < 16 ∧ parsesHeaderFirst .scans = true := by decide
theorem witness_ReaderCommandsParseTheHeaderFirst :
    (∃ t, exec .hdr (attached cart) = .next t ∧ t.hv = true) ∧ (∃ t, exec .hdr (attached ⟨15, []⟩) = .next t ∧ t.hv = false) ∧
    parsesHeaderFirst .rdp = true ∧ (attached cart).hv = false :=
  ⟨⟨_, rfl, rfl⟩, ⟨_, rfl, rfl⟩, rfl, rfl⟩
/-- `cart` parsed, with reader operands. -/
def reading (bi bo a : Word) : State := { parsed with bi := bi, bo := bo, a := a }
/-- `stub` parsed, with reader operands and one CHR bank promised. -/
def readingStub (bo a : Word) : State := { table with chrn := 1, bo := bo, a := a }
/-- The last offset of the bank, and the first past the end of a short image. -/
theorem witness_RdpReadsThePrgBank :
    (∃ s : State, s.SnapInv ∧ s.hv = true ∧ s.bi.toNat < s.prgn.toNat ∧ s.bo.toNat < 16384 ∧
      s.ioFails (s.poff.toNat + 16384 * s.bi.toNat + s.bo.toNat) = false ∧
      s.img.read (s.poff.toNat + 16384 * s.bi.toNat + s.bo.toNat) = some 0xA9) ∧
    ∃ s : State, s.SnapInv ∧ s.hv = true ∧ s.bi.toNat < s.prgn.toNat ∧ s.bo.toNat < 16384 ∧
      s.ioFails (s.poff.toNat + 16384 * s.bi.toNat + s.bo.toNat) = false ∧
      s.img.read (s.poff.toNat + 16384 * s.bi.toNat + s.bo.toNat) = none :=
  ⟨⟨reading 0 0x3FFF 0, .inl rfl, rfl, by decide, by decide, rfl, by decide⟩,
    readingStub 7 0, .inl rfl, rfl, by decide, by decide, rfl, by decide⟩
theorem witness_RdcReadsTheChrBank :
    (∃ s : State, s.SnapInv ∧ s.hv = true ∧ s.bi.toNat < s.chrn.toNat ∧ s.bo.toNat < 8192 ∧
      s.ioFails (s.poff.toNat + 16384 * s.prgn.toNat + 8192 * s.bi.toNat + s.bo.toNat) = false ∧
      s.img.read (s.poff.toNat + 16384 * s.prgn.toNat + 8192 * s.bi.toNat + s.bo.toNat) = some 0) ∧
    ∃ s : State, s.SnapInv ∧ s.hv = true ∧ s.bi.toNat < s.chrn.toNat ∧ s.bo.toNat < 8192 ∧
      s.ioFails (s.poff.toNat + 16384 * s.prgn.toNat + 8192 * s.bi.toNat + s.bo.toNat) = false ∧
      s.img.read (s.poff.toNat + 16384 * s.prgn.toNat + 8192 * s.bi.toNat + s.bo.toNat) = none :=
  ⟨⟨reading 0 0x1FFF 0, .inl rfl, rfl, by decide, by decide, rfl, by decide⟩,
    readingStub 0 0, .inl rfl, rfl, by decide, by decide, rfl, by decide⟩
/-- The last index of the region, and the first past it. -/
theorem witness_RdrReadsThePrgRegion :
    (∃ s : State, s.SnapInv ∧ s.hv = true ∧
      s.bo.toNat < min (16384 * s.prgn.toNat) (s.img.len.toNat - s.poff.toNat) ∧
      s.ioFails (s.poff.toNat + s.bo.toNat) = false) ∧
    ∃ s : State, s.SnapInv ∧ s.hv = true ∧
      min (16384 * s.prgn.toNat) (s.img.len.toNat - s.poff.toNat) ≤ s.bo.toNat :=
  ⟨⟨readingStub 6 0, .inl rfl, rfl, by decide, rfl⟩, readingStub 7 0, .inl rfl, rfl, by decide⟩
theorem witness_AddressedReadsUseTheBankOffset :
    (reading 0 0 0x8000).hv = true ∧ 0x8000 ≤ (reading 0 0 0x8000).a.toNat ∧ (reading 0 0 0x8000).a.toNat ≤ 0xFFFF ∧
    (reading 0 0 0x8000).params.bankOff = [] ∧ 0x8000 ≤ (reading 0 0 0xFFFF).a.toNat ∧
    (reading 0 0 0xFFFF).a.toNat ≤ 0xFFFF := by decide
theorem witness_RdpaReadsTheByteAtTheAddress :
    (∃ s : State, s.SnapInv ∧ s.hv = true ∧ 0x8000 ≤ s.a.toNat ∧ s.a.toNat ≤ 0xFFFF ∧ s.bi.toNat < s.prgn.toNat ∧
      s.ioFails (s.poff.toNat + 16384 * s.bi.toNat + bankOff s.params.bankOff .prg (s.a.setWidth 16)) = false ∧
      s.img.read (s.poff.toNat + 16384 * s.bi.toNat + bankOff s.params.bankOff .prg (s.a.setWidth 16)) = some 0xA9) ∧
    ∃ s : State, s.SnapInv ∧ s.hv = true ∧ 0x8000 ≤ s.a.toNat ∧ s.a.toNat ≤ 0xFFFF ∧ s.bi.toNat < s.prgn.toNat ∧
      s.ioFails (s.poff.toNat + 16384 * s.bi.toNat + bankOff s.params.bankOff .prg (s.a.setWidth 16)) = false ∧
      s.img.read (s.poff.toNat + 16384 * s.bi.toNat + bankOff s.params.bankOff .prg (s.a.setWidth 16)) = none :=
  ⟨⟨reading 0 0 0xFFFF, .inl rfl, rfl, by decide, by decide, by decide, rfl, by decide⟩,
    readingStub 0 0x8007, .inl rfl, rfl, by decide, by decide, by decide, rfl, by decide⟩
theorem witness_RdcaReadsTheByteAtTheAddress :
    (∃ s : State, s.SnapInv ∧ s.hv = true ∧ 0x8000 ≤ s.a.toNat ∧ s.a.toNat ≤ 0xFFFF ∧ s.bi.toNat < s.chrn.toNat ∧
      s.ioFails (s.poff.toNat + 16384 * s.prgn.toNat + 8192 * s.bi.toNat +
        bankOff s.params.bankOff .chr (s.a.setWidth 16)) = false ∧
      s.img.read (s.poff.toNat + 16384 * s.prgn.toNat + 8192 * s.bi.toNat +
        bankOff s.params.bankOff .chr (s.a.setWidth 16)) = some 0x7E) ∧
    ∃ s : State, s.SnapInv ∧ s.hv = true ∧ 0x8000 ≤ s.a.toNat ∧ s.a.toNat ≤ 0xFFFF ∧ s.bi.toNat < s.chrn.toNat ∧
      s.ioFails (s.poff.toNat + 16384 * s.prgn.toNat + 8192 * s.bi.toNat +
        bankOff s.params.bankOff .chr (s.a.setWidth 16)) = false ∧
      s.img.read (s.poff.toNat + 16384 * s.prgn.toNat + 8192 * s.bi.toNat +
        bankOff s.params.bankOff .chr (s.a.setWidth 16)) = none :=
  ⟨⟨reading 0 0 0x8101, .inl rfl, rfl, by decide, by decide, by decide, rfl, by decide⟩,
    readingStub 0 0x8000, .inl rfl, rfl, by decide, by decide, by decide, rfl, by decide⟩
theorem witness_BankReadsCheckBankThenOffset :
    parsed.hv = true ∧ (reading 1 0 0).prgn.toNat ≤ (reading 1 0 0).bi.toNat ∧
    ((reading 0 0x4000 0).bi.toNat < (reading 0 0x4000 0).prgn.toNat ∧ 16384 ≤ (reading 0 0x4000 0).bo.toNat) ∧
    (reading 1 0 0).chrn.toNat ≤ (reading 1 0 0).bi.toNat ∧
    ((reading 0 0x2000 0).bi.toNat < (reading 0 0x2000 0).chrn.toNat ∧ 8192 ≤ (reading 0 0x2000 0).bo.toNat) := by decide
theorem witness_AddressedReadsCheckAddressThenBank :
    parsed.hv = true ∧ (reading 0 0 0x7FFF).a.toNat < 0x8000 ∧ 0xFFFF < (reading 0 0 0x10000).a.toNat ∧
    (0x8000 ≤ (reading 1 0 0x8000).a.toNat ∧ (reading 1 0 0x8000).a.toNat ≤ 0xFFFF ∧
      (reading 1 0 0x8000).prgn.toNat ≤ (reading 1 0 0x8000).bi.toNat ∧
      (reading 1 0 0x8000).chrn.toNat ≤ (reading 1 0 0x8000).bi.toNat) := by decide
theorem witness_BankAndRegionReadsAgree :
    parsed.SnapInv ∧ parsed.hv = true ∧ parsed.params.imgIoFaults = false ∧ 0 < parsed.prgn.toNat ∧
    (∃ t, exec .rdp { parsed with bi := BitVec.ofNat 32 0, bo := BitVec.ofNat 32 0x3FFF } = .next t) ∧
    ∃ u, exec .rdr { parsed with bo := BitVec.ofNat 32 (16384 * 0 + 0x3FFF) } = .next u :=
  ⟨.inl rfl, rfl, rfl, by decide, ⟨_, rfl⟩, ⟨_, rfl⟩⟩
/-- One offset that is read for each read command; the header of an image of 16 bytes; the first comparison of a scan,
and the one that follows a byte that stands. The scan's hypotheses are met in `scanning_inv`. -/
theorem witness_IoFailureExactlyWhenDrawn :
    (parsed.hv = true ∧ parsesHeaderFirst .rdca = true ∧ parsed.payloadOffset .hdr = none ∧
      (reading 0 0x3FFF 0).payloadOffset .rdp = some 0x400F ∧ (reading 0 0x1FFF 0).payloadOffset .rdc = some 0x600F ∧
      (reading 0 0x3FFF 0).payloadOffset .rdr = some 0x400F ∧ (reading 0 0x4000 0).payloadOffset .rdr = none ∧
      (reading 0 0 0xFFFF).payloadOffset .rdpa = some 0x400F ∧ (reading 0 0 0x8000).payloadOffset .rdca = some 0x4010 ∧
      (reading 0 0 0xFFFF).ioFails 0x400F = false) ∧
    ((attached ⟨16, []⟩).SnapInv ∧ (attached ⟨16, []⟩).hv = false ∧ 16 ≤ (attached ⟨16, []⟩).img.len.toNat) ∧
    (scanning.SnapInv ∧ scanning.ss = .active ∧ scanning.Examines 0 0 0 ∧ scanning.Examines 0 1 1) ∧
    (parsed.params.imgIoFaults = false ∧ opcode? .scann ≠ none ∧ ∃ t, exec .scann parsed = .next t) :=
  ⟨by decide, ⟨.inl rfl, rfl, by decide⟩,
    ⟨.inl rfl, rfl,
      ⟨by decide, by decide, by decide, by decide, by decide, fun m h => absurd h (Nat.not_lt_zero m),
        fun x _ h => absurd h (Nat.not_lt_zero x), fun i _ _ h => absurd h (Nat.not_lt_zero i)⟩,
      ⟨by decide, by decide, by decide, by decide, by decide, fun m h => by rw [Nat.lt_one_iff.mp h]; decide,
        fun x _ h => by rw [Nat.lt_one_iff.mp h]; decide, fun i _ _ h => absurd h (Nat.not_lt_zero i)⟩⟩,
    rfl, by decide, _, rfl⟩
theorem witness_CandidateIsWrappedAndRebiased : (0xFFFFFFFF#32).toNat % 32768 = (0x7FFF#32).toNat % 32768 := by decide
theorem witness_ScansStartsTheScan : table.hv = true ∧ table.np.toNat ≤ 8 ∧
    ∀ j, j < table.np.toNat → 1 ≤ (table.slotAt j).plen.toNat ∧ (table.slotAt j).plen.toNat ≤ 8 := by decide
theorem witness_ScansRefusesAnIllegalList :
    table.hv = true ∧ 8 < ({ table with np := 9 } : State).np.toNat ∧
    (({ table with np := 2 } : State).np.toNat ≤ 8 ∧ 1 < ({ table with np := 2 } : State).np.toNat ∧
      (({ table with np := 2 } : State).slotAt 1).plen.toNat = 0 ∧
      ∀ i, i < 1 → 1 ≤ (({ table with np := 2 } : State).slotAt i).plen.toNat ∧
        (({ table with np := 2 } : State).slotAt i).plen.toNat ≤ 8) := by decide
theorem scanning_inv : scanning.SnapInv ∧ scanning.NoIoFailure ∧ scanning.ScanInv ∧ scanning.ss = .active :=
  ⟨.inl rfl, State.noIoFailure_of_default rfl,
    ⟨fun _ => by decide, fun _ => by decide, fun h => by cases h⟩, rfl⟩
/-- The hit at 1, behind a location at which the pattern does not occur. -/
theorem witness_ScannReportsTheFirstHit :
    scanning.SnapInv ∧ scanning.NoIoFailure ∧ scanning.ScanInv ∧ scanning.ss = .active ∧
    scanning.sj.toNat ≤ 0 ∧ 0 < scanning.np.toNat ∧ scanning.searchStart 0 ≤ 1 ∧ scanning.occurs 0 1 = true ∧
    (∀ x, scanning.searchStart 0 ≤ x → x < 1 → scanning.occurs 0 x = false) ∧
    (∀ i x, scanning.sj.toNat ≤ i → i < 0 → scanning.searchStart i ≤ x → scanning.occurs i x = false) :=
  ⟨scanning_inv.1, scanning_inv.2.1, scanning_inv.2.2.1, rfl, by decide, by decide, by decide, by decide,
    fun x _ h => by rw [Nat.lt_one_iff.mp h]; decide, fun i _ _ h => absurd h (Nat.not_lt_zero i)⟩
/-- The search starts past the last location at which the pattern fits. -/
theorem witness_ScannReportsExhaustion :
    ({ scanning with sp := 5 } : State).SnapInv ∧ ({ scanning with sp := 5 } : State).NoIoFailure ∧
    ({ scanning with sp := 5 } : State).ScanInv ∧ ({ scanning with sp := 5 } : State).ss = .active ∧
    (∀ i x, ({ scanning with sp := 5 } : State).sj.toNat ≤ i → i < ({ scanning with sp := 5 } : State).np.toNat →
      ({ scanning with sp := 5 } : State).searchStart i ≤ x → ({ scanning with sp := 5 } : State).occurs i x = false) := by
  refine ⟨.inl rfl, State.noIoFailure_of_default rfl,
    ⟨fun _ => by decide, fun _ => by decide, fun h => by cases h⟩, rfl, fun i x _ hi hx => ?_⟩
  have hi : i = 0 := Nat.lt_one_iff.mp hi
  subst hi
  have hx : 5 ≤ x := hx
  have hp : ({ scanning with sp := 5 } : State).prgLen = 7 := by decide
  have hl : (({ scanning with sp := 5 } : State).slotAt 0).plen.toNat = 3 := by decide
  simp only [State.occurs, hp, hl, Bool.and_eq_false_iff, decide_eq_false_iff_not]
  exact .inl (by omega)
theorem witness_ScannWithoutActiveScan :
    ({ scanning with ss := .done } : State).ss = .done ∧ State.reset.ss = .idle := by decide
theorem witness_ScannsYieldTheSequence :
    table.SnapInv ∧ table.params.imgIoFaults = false ∧ ∃ t, exec .scans table = .next t ∧ t.err = 0 :=
  ⟨.inl rfl, rfl, _, rfl, rfl⟩
/-- A legal script of a hardware reset and a word, behind a parsed header. -/
def busy : State := { parsed with script := [.reset stub, .bus 0x800000000021] }
theorem witness_StepKeepsTheInvariant : busy.Inv ∧ ∃ t, step busy = .next t := by
  refine ⟨⟨by decide, ?_, .inl rfl, ?_, ⟨fun h => absurd rfl h, fun h => (by cases h), fun h => (by cases h)⟩, by decide,
    by decide, by decide, by decide, fun h => absurd rfl h⟩, ⟨_, rfl⟩⟩
  · intro img h
    rcases List.mem_cons.mp h with h | h
    · cases h; decide
    · exact absurd h (by simp)
  · exact ⟨by decide, by decide, by decide, ⟨0, by decide, by decide⟩, by decide⟩
theorem witness_EveryTransactionCompletes : busy.ScriptLegal := by
  intro e h
  rcases List.mem_cons.mp h with h | h
  · subst h; show stub.wf = true; decide
  · rw [List.mem_singleton.mp h]; show BusWord.wellFormed _ = true; decide
theorem witness_NoInstructionChangesImageOrParameters : ∃ t, exec .rdp parsed = .next t := ⟨_, rfl⟩
theorem witness_ParsedHeaderIsImmutable : parsed.hv = true ∧ isReset .hdr = false ∧ ∃ t, exec .hdr parsed = .next t :=
  ⟨rfl, rfl, _, rfl⟩
theorem witness_StickyBitsAreClearedOnlyByReset :
    isReset .enc6 = false ∧ State.reset.estk.getLsbD 2 = false ∧ reportsOutcome .enc6 = true ∧
    ({ State.reset with estk := 16 } : State).estk.getLsbD 4 = true ∧
    ∃ t, exec .enc6 State.reset = .next t ∧ t.estk.getLsbD 2 = true ∧ t.err ≠ 0 :=
  ⟨rfl, rfl, rfl, rfl, _, rfl, by decide, by decide⟩
theorem witness_FailingCommandWritesOnlyErrorRegisters :
    opcode? .rdp ≠ none ∧ opcode? .nop ≠ none ∧
    (∃ t, exec .rdp { parsed with bi := 1 } = .next t ∧ t.err ≠ 0 ∧ ({ parsed with bi := 1 } : State).hv = true) ∧
    (∃ t, exec .rdp (attached ⟨15, []⟩) = .next t ∧ t.err ≠ 0 ∧ t.hv = (attached ⟨15, []⟩).hv) ∧
    (∃ t, exec .rdp { attached cart with bi := 1 } = .next t ∧ t.err ≠ 0 ∧ t.hv ≠ ({ attached cart with bi := 1 } : State).hv) ∧
    (∃ t, exec .nop parsed = .next t ∧ t.err = 0) :=
  ⟨by decide, by decide, ⟨_, rfl, by decide, rfl⟩, ⟨_, rfl, by decide, rfl⟩, ⟨_, rfl, by decide, by decide⟩, ⟨_, rfl, rfl⟩⟩
/-- The image built byte by byte and the one written out. -/
theorem witness_CanonicalImagesAreDeterminedByTheirBytes :
    (imageOfBytes [0, 7]).wf = true ∧ (⟨2, [(1, 7)]⟩ : Image).wf = true ∧ (imageOfBytes [0, 7]).len = 2 ∧
    ∀ off, off < 2 → (imageOfBytes [0, 7]).read off = (⟨2, [(1, 7)]⟩ : Image).read off := by decide
/-- The lowest and the highest address; it serves DECODE, REENCODE and GENRANDOM. -/
theorem witness_DecodeSequenceReturnsThePatch :
    0x8000 ≤ (⟨0x8000, 0, none⟩ : Patch).address.toNat ∧ 0x8000 ≤ (⟨0xFFFF, 0, some 0xFF⟩ : Patch).address.toNat := by decide
theorem witness_DecodeSequenceFailsOnLength :
    ([] : Code).length ≠ 6 ∧ ([] : Code).length ≠ 8 ∧ (sxiopo ++ [0x41]).length ≠ 6 ∧ (sxiopo ++ [0x41]).length ≠ 8 := by decide
theorem witness_ReencodeSequenceRebuildsThePatch : 0x8000 ≤ (⟨0x91D9, 0xAD, none⟩ : Patch).address.toNat := by decide
theorem witness_GenRandomSequenceGivesTheCode : 0x8000 ≤ (⟨0x8000, 0xFF, some 0⟩ : Patch).address.toNat := by decide
/-- One PRG bank with a byte at the address, no CHR bank: one code, the PRG bank's. -/
theorem witness_SaferSequenceKeepsThePatch :
    (attached stub).SnapInv ∧
    returns (safer [0x41, 0x41, 0x41, 0x41, 0x50, 0x41]) (attached stub) [codeOfPatch ⟨0x8001, 0, some 0xA9⟩] = true ∧
    ∃ codes t, safer [0x41, 0x41, 0x41, 0x41, 0x50, 0x41] (attached stub) = .ok (codes, t) := by
  refine ⟨.inl rfl, by decide +kernel, ?_⟩
  have h : (safer [0x41, 0x41, 0x41, 0x41, 0x50, 0x41] (attached stub)).isOk = true := by decide +kernel
  cases hs : safer [0x41, 0x41, 0x41, 0x41, 0x50, 0x41] (attached stub) with
  | ok x => exact ⟨x.1, x.2, rfl⟩
  | error e => rw [hs] at h; cases h

end Sys2Proof.Machine.Tests
end

/-! PROOFS. The statements of the family "state": the image and the launch parameters are kept by every instruction
(R42), a write to `CMD` is its command (R30), a transaction on an unmapped number is an error entry (R36), the reset
state reads 0 (R43). -/

namespace Sys2Proof.Machine

open Sys2Proof

/-! ### What a launch fixes

The image and the parameters are carried as one value, so that "keeps both" is an equation: it is rewritten with and
chained like any other, and each operation of the model has one lemma. -/

/-- The image and the launch parameters (R42). -/
def State.launch (s : State) : Image × Params := (s.img, s.params)

theorem State.launch_eq_iff (s t : State) : t.launch = s.launch ↔ t.img = s.img ∧ t.params = s.params :=
  Prod.mk_inj

@[simp] theorem State.raise_launch (s : State) (e : CmdError) : (s.raise e).launch = s.launch := rfl
@[simp] theorem State.succeed_launch (s : State) : s.succeed.launch = s.launch := rfl
@[simp] theorem State.nextDraw_launch (s : State) : s.nextDraw.launch = s.launch := rfl
@[simp] theorem State.fillSnap_launch (s : State) : s.fillSnap.launch = s.launch := rfl
@[simp] theorem State.resetBlock_launch (s : State) : s.resetBlock.launch = s.launch := rfl
@[simp] theorem State.storeCode_launch (s : State) (chars : List Byte) : (s.storeCode chars).launch = s.launch := rfl
@[simp] theorem State.storePatch_launch (s : State) (p : Patch) : (s.storePatch p).launch = s.launch := rfl
@[simp] theorem State.storeHeader_launch (s : State) (b4 b5 b6 : Byte) :
    (s.storeHeader b4 b5 b6).launch = s.launch := rfl
@[simp] theorem State.deliver_launch (s : State) (r : Option Byte) : (s.deliver r).launch = s.launch := rfl
@[simp] theorem State.reportHit_launch (s : State) (j h : Nat) : (s.reportHit j h).launch = s.launch := by
  simp [State.launch]
@[simp] theorem State.reportExhausted_launch (s : State) (j : Nat) : (s.reportExhausted j).launch = s.launch := by
  simp [State.launch]
@[simp] theorem State.writeReg_launch (s : State) (r : Reg) (w : Word) : (s.writeReg r w).launch = s.launch := by
  cases r <;> rfl

/-! ### Command bodies that keep what a launch fixes -/

/-- A command body that, where it succeeds, keeps the image and the parameters. -/
def KeepsLaunch (body : State → Except CmdError State) : Prop :=
  ∀ s t : State, body s = .ok t → t.launch = s.launch

/-- A command without a header parse keeps them: a failure is the error entry (R229). -/
theorem KeepsLaunch.settle {body : State → Except CmdError State} (hb : KeepsLaunch body) (s : State) :
    (s.settle (body s)).launch = s.launch := by
  rcases s.settle_cases (body s) with ⟨t, ht, hs⟩ | ⟨e, -, hs⟩
  · simp [hs, hb s t ht]
  · simp [hs]

theorem ensureHeader_keepsLaunch : KeepsLaunch State.ensureHeader := by
  intro s h hp
  rcases State.ensureHeader_ok hp with ⟨-, rfl⟩ | ⟨-, -, b4, b5, b6, -, -, -, rfl⟩
  · rfl
  · simp

/-- A command that begins with `EnsureHeader()` keeps them, whether the parse or the body fails or neither (R140). -/
theorem KeepsLaunch.withHeader {body : State → Except CmdError State} (hb : KeepsLaunch body) (s : State) :
    (s.withHeader body).launch = s.launch := by
  rcases s.withHeader_cases body with ⟨e, -, hs⟩ | ⟨h, e, hp, -, hs⟩ | ⟨h, t, hp, ht, hs⟩
  · simp [hs]
  · simp [hs, ensureHeader_keepsLaunch s h hp]
  · simp [hs, hb h t ht, ensureHeader_keepsLaunch s h hp]

theorem encodeOperands_keepsLaunch (withCompare : Bool) : KeepsLaunch (·.encodeOperands withCompare) := by
  intro s t h
  simp only [State.encodeOperands] at h
  cases hp : s.operandPatch withCompare with
  | error e => simp [hp] at h
  | ok p =>
    obtain rfl : s.storeCode (codeOfPatch p) = t := by simpa [hp] using h
    simp

theorem readPayload_keepsLaunch (off : Nat) : KeepsLaunch (·.readPayload off) := by
  intro s t h
  rcases s.readPayload_cases off with ⟨-, hr⟩ | ⟨-, hr⟩ <;> simp only [hr] at h <;> cases h
  simp

theorem readBank_keepsLaunch (r : Region) : KeepsLaunch (·.readBank r) := by
  intro s t h
  rcases s.readBank_cases r with ⟨-, hr⟩ | ⟨-, -, hr⟩ | ⟨-, -, hr⟩ <;> simp only [hr] at h
  · cases h
  · cases h
  · exact readPayload_keepsLaunch _ s t h

theorem readBankAt_keepsLaunch (r : Region) : KeepsLaunch (·.readBankAt r) := by
  intro s t h
  rcases s.readBankAt_cases r with ⟨-, hr⟩ | ⟨-, -, hr⟩ | ⟨-, -, hr⟩ <;> simp only [hr] at h
  · cases h
  · cases h
  · exact readPayload_keepsLaunch _ s t h

theorem readRegion_keepsLaunch : KeepsLaunch State.readRegion := by
  intro s t h
  rcases s.readRegion_cases with ⟨-, hr⟩ | ⟨-, hr⟩ <;> rw [hr] at h
  · cases h; simp
  · exact readPayload_keepsLaunch _ s t h

theorem startScan_keepsLaunch : KeepsLaunch State.startScan := by
  intro s t h
  rcases s.startScan_cases with ⟨-, hr⟩ | ⟨-, _, -, hr⟩ | ⟨-, -, hr⟩ <;> rw [hr] at h <;> cases h
  rfl

theorem scanNext_keepsLaunch : KeepsLaunch State.scanNext := by
  intro s t h
  rcases s.scanNext_cases with ⟨-, hr⟩ | ⟨-, hr⟩ | ⟨-, ⟨hr, -⟩ | ⟨j, l, -, hr⟩ | ⟨j, -, hr⟩⟩ <;> rw [hr] at h
  · cases h
  · cases h; rfl
  · cases h
  · obtain rfl := Except.ok.inj h; simp
  · obtain rfl := Except.ok.inj h; simp

/-- DEC ends in an error entry or has stored the decoded patch (R123). -/
theorem execDec_cases (s : State) :
    (∃ e, decodeCells s.k s.kl = .error e ∧ execDec s = .next (s.raise e)) ∨
    (∃ p, decodeCells s.k s.kl = .ok p ∧ execDec s = .next (s.storePatch p).succeed) := by
  unfold execDec
  cases decodeCells s.k s.kl with
  | error e => exact .inl ⟨e, rfl, rfl⟩
  | ok p => exact .inr ⟨p, rfl, rfl⟩

/-! ### Every instruction keeps what a launch fixes (R42) -/

/-- A command, issued alone or reached through `CMD`, keeps the image and the parameters: its body does. -/
theorem exec_command_launch {i : Instr} {op : Byte} (hop : opcode? i = some op) {s t : State}
    (h : exec i s = .next t) : t.launch = s.launch := by
  cases i with
  | nop => cases h; exact s.succeed_launch
  | rst => cases h; exact s.resetBlock_launch
  | enc6 => cases h; exact (encodeOperands_keepsLaunch false).settle s
  | enc8 => cases h; exact (encodeOperands_keepsLaunch true).settle s
  | dec =>
    rcases execDec_cases s with ⟨e, -, hd⟩ | ⟨p, -, hd⟩
    · cases hd.symm.trans h; simp
    · cases hd.symm.trans h; simp
  | hdr => cases h; exact KeepsLaunch.withHeader (fun s t ht => by cases ht; rfl) s
  | rdp => cases h; exact (readBank_keepsLaunch .prg).withHeader s
  | rdc => cases h; exact (readBank_keepsLaunch .chr).withHeader s
  | rdr => cases h; exact readRegion_keepsLaunch.withHeader s
  | rdpa => cases h; exact (readBankAt_keepsLaunch .prg).withHeader s
  | rdca => cases h; exact (readBankAt_keepsLaunch .chr).withHeader s
  | scans => cases h; exact startScan_keepsLaunch.withHeader s
  | scann => cases h; simp [scanNext_keepsLaunch.settle s]
  | wr reg data => cases hop
  | rd reg => cases hop

/-- A bus write keeps them: it is an error entry, a register write, or the dispatch of a command (R180). -/
theorem execWr_launch {reg : Byte} {data : Word} {s t : State} (h : execWr reg data s = .next t) :
    t.launch = s.launch := by
  rcases execWr_cases reg data s with ⟨-, hw⟩ | ⟨-, hw⟩ | ⟨r, -, -, hw⟩ <;> rw [hw] at h
  · cases h; simp
  · rcases runCommand_cases (data.setWidth 8) s with ⟨i, hop, hc⟩ | hc <;> rw [hc] at h
    · exact exec_command_launch hop h
    · cases h; simp
  · cases h; simp

/-- A bus read keeps them: it writes the bus value and at most the error registers (R181). -/
theorem execRd_launch {reg : Byte} {s t : State} (h : execRd reg s = .next t) : t.launch = s.launch := by
  rcases execRd_cases reg s with ⟨-, hr⟩ | ⟨r, -, hr⟩ <;> rw [hr] at h <;> cases h <;> rfl

/-- Every instruction is a command or one of the two transactions, and each keeps the image and the parameters. -/
theorem exec_launch {i : Instr} {s t : State} (h : exec i s = .next t) : t.launch = s.launch := by
  cases i with
  | wr reg data => exact execWr_launch h
  | rd reg => exact execRd_launch h
  | nop | rst | enc6 | enc8 | dec | hdr | rdp | rdc | rdr | rdpa | rdca | scans | scann =>
    exact exec_command_launch rfl h

/-- Settles O51: the image and the parameters as one value are kept by the end of a command, the header parse, every
command body and both bus transactions. -/
theorem noInstructionChangesImageOrParameters : Obligations.NoInstructionChangesImageOrParameters := by
  intro i s t h
  exact (State.launch_eq_iff s t).mp (exec_launch h)

/-! ### A write to `CMD` (R30) -/

/-- Dispatch of a command's opcode is the command (R92, R184). -/
theorem runCommand_of_opcode {i : Instr} {op : Byte} (hop : opcode? i = some op) (s : State) :
    runCommand op s = exec i s := by
  cases i <;> cases hop <;> rfl

theorem exec_wr_cmd (data : Word) (s : State) : exec (.wr 0x00#8 data) s = runCommand (data.setWidth 8) s := rfl

/-- Settles O5: the write is the dispatch of the low 8 bits, and dispatch of an opcode is its command. -/
theorem writeToCmdRunsTheCommand : Obligations.WriteToCmdRunsTheCommand := by
  intro s
  refine ⟨fun i op data hop hdata => ?_, rfl⟩
  rw [exec_wr_cmd, hdata, runCommand_of_opcode hop]

/-! ### A transaction on an unmapped number (R36) -/

/-- `EINFO` of an error, as the number its sub-cause and index make (R225). -/
theorem errInfo_eq_ofNat (e : CmdError) :
    errInfo e = BitVec.ofNat 32 ((errIdx e).toNat * 256 + (errSub e).toNat) := by
  rw [← errInfo_toNat, BitVec.ofNat_toNat, BitVec.setWidth_eq]

/-- The error entry BAD_REG written out: class 4, sub-cause 2, the register number as index (R224, R229). -/
theorem State.raise_badReg (s : State) (n : Byte) :
    s.raise (.badReg n) =
      { s with err := 4, einfo := BitVec.ofNat 32 (n.toNat * 256 + 2), estk := s.estk ||| 0b10000#5 } := by
  rw [State.raise, errInfo_eq_ofNat]
  rfl

theorem exec_wr_unmapped {n : Byte} (hn : regOfNumber n = none) (w : Word) (s : State) :
    exec (.wr n w) s = .next (s.raise (.badReg n)) := by
  rcases execWr_cases n w s with ⟨-, hw⟩ | ⟨hc, -⟩ | ⟨r, -, hr, -⟩
  · exact hw
  · rw [hn] at hc; cases hc
  · rw [hn] at hr; cases hr

theorem exec_rd_unmapped {n : Byte} (hn : regOfNumber n = none) (s : State) :
    exec (.rd n) s = .next { s.raise (.badReg n) with reply := some 0 } := by
  rcases execRd_cases n s with ⟨-, hr⟩ | ⟨r, hr, -⟩
  · exact hr
  · rw [hn] at hr; cases hr

/-- Settles O10: both transactions perform the error entry BAD_REG, and the read puts 0 on the bus. -/
theorem unmappedNumberIsIllegalCommand : Obligations.UnmappedNumberIsIllegalCommand := by
  intro s n w hn
  rw [exec_wr_unmapped hn, exec_rd_unmapped hn, State.raise_badReg]
  exact ⟨rfl, rfl⟩

/-! ### Registers after a reset (R43) -/

/-- Each reset slot reads 0 (R28, R43). -/
@[simp] theorem State.resetBlock_slot (s : State) (j : Fin 8) : s.resetBlock.slot j = Slot.zero := by
  simp [State.slot]

/-- After a reset every register but `IMGLEN` reads 0: the scalars hold 0, the cells and slots are copies of 0, and
`FLAGS` joins five zeros. -/
theorem State.readReg_resetBlock (s : State) {r : Reg} (hr : r ≠ .imglen) : s.resetBlock.readReg r = 0 := by
  cases r with
  | imglen => exact absurd rfl hr
  | k i => simp [State.readReg]
  | pb j k => simp [State.readReg, Slot.zero]
  | plen j => simp [State.readReg, Slot.zero]
  | po j => simp [State.readReg, Slot.zero]
  | flags => simp [State.readReg, State.flags, scanStateBits, bit]
  | _ => rfl

/-- The reset state is what a reset makes of it (R43, R183). -/
theorem State.resetBlock_reset : State.reset.resetBlock = State.reset := rfl

/-- Settles O15: the reset state is its own reset, after which every register but `IMGLEN` reads 0. -/
theorem resetStateReadsZero : Obligations.ResetStateReadsZero := by
  refine ⟨fun r hr => ?_, rfl, rfl⟩
  rw [← State.resetBlock_reset]
  exact State.reset.readReg_resetBlock hr

end Sys2Proof.Machine

/-! PROOFS. The statements of the family "encoding": which 48-bit words are script words and what each is (R94), which
opcodes are commands and what the others do (R92, R93), and the alphabet (R95). -/

namespace Sys2Proof.Machine

open Sys2Proof

/-! ### The fields of a bus word, as numbers (R94) -/

theorem busWord_isWrite_eq_decide (w : BusWord) : w.isWrite = decide (2 ^ 47 ≤ w.toNat) :=
  (BitVec.msb_eq_getLsbD_last w).symm.trans (BitVec.msb_eq_decide w)

theorem busWord_zeroField_toNat (w : BusWord) : w.zeroField.toNat = w.toNat / 2 ^ 40 % 2 ^ 7 := by
  simp [BusWord.zeroField, Nat.shiftRight_eq_div_pow]

theorem busWord_reg_toNat (w : BusWord) : w.reg.toNat = w.toNat / 2 ^ 32 % 2 ^ 8 := by
  simp [BusWord.reg, Nat.shiftRight_eq_div_pow]

theorem busWord_data_toNat (w : BusWord) : w.data.toNat = w.toNat % 2 ^ 32 := by
  simp [BusWord.data]

theorem busWord_wellFormed_iff (w : BusWord) :
    w.wellFormed = true ↔ w.toNat / 2 ^ 40 % 2 ^ 7 = 0 ∧ (2 ^ 47 ≤ w.toNat ∨ w.toNat % 2 ^ 32 = 0) := by
  simp [BusWord.wellFormed, BusWord.zeroFieldClear, BusWord.readDataClear, busWord_isWrite_eq_decide,
    ← BitVec.toNat_inj, busWord_zeroField_toNat, busWord_data_toNat]

/-! ### A script word is the word of the transaction in its fields -/

/-- A word is a write's exactly when it passes both checks, has bit 47, and holds these fields. -/
theorem eq_writeWord_iff (w : BusWord) (reg : Byte) (data : Word) :
    w = writeWord reg data ↔ w.wellFormed = true ∧ w.isWrite = true ∧ w.reg = reg ∧ w.data = data := by
  have hw := w.isLt
  have hreg := reg.isLt
  have hdata := data.isLt
  rw [← BitVec.toNat_inj, writeWord_toNat, busWord_wellFormed_iff, busWord_isWrite_eq_decide, decide_eq_true_eq,
    ← BitVec.toNat_inj, busWord_reg_toNat, ← BitVec.toNat_inj, busWord_data_toNat]
  omega

/-- A word is a read's exactly when it passes both checks, lacks bit 47, and holds this register number. -/
theorem eq_readWord_iff (w : BusWord) (reg : Byte) :
    w = readWord reg ↔ w.wellFormed = true ∧ w.isWrite = false ∧ w.reg = reg := by
  have hw := w.isLt
  have hreg := reg.isLt
  rw [← BitVec.toNat_inj, readWord_toNat, busWord_wellFormed_iff, busWord_isWrite_eq_decide, decide_eq_false_iff_not,
    ← BitVec.toNat_inj, busWord_reg_toNat]
  omega

/-! ### What the decoder of bus words answers (R94) -/

/-- The decoder refuses a word that fails a check, and reads the fields of every other. -/
theorem decodeBus48_cases (w : BusWord) :
    (w.wellFormed = false ∧ ∃ e, decodeBus48 w = .error e) ∨
    (w.wellFormed = true ∧ w.isWrite = true ∧ decodeBus48 w = .ok (.wr w.reg w.data)) ∨
    (w.wellFormed = true ∧ w.isWrite = false ∧ decodeBus48 w = .ok (.rd w.reg)) := by
  unfold decodeBus48 BusWord.wellFormed
  cases w.zeroFieldClear with
  | false => exact .inl ⟨rfl, _, rfl⟩
  | true =>
    cases w.readDataClear with
    | false => exact .inl ⟨rfl, _, rfl⟩
    | true =>
      cases w.isWrite with
      | true => exact .inr (.inl ⟨rfl, rfl, rfl⟩)
      | false => exact .inr (.inr ⟨rfl, rfl, rfl⟩)

theorem decodeBus48_eq_error_iff (w : BusWord) : (∃ e, decodeBus48 w = .error e) ↔ w.wellFormed = false := by
  rcases decodeBus48_cases w with ⟨hwf, hd⟩ | ⟨hwf, -, hd⟩ | ⟨hwf, -, hd⟩ <;> simp [hwf, hd]

theorem decodeBus48_eq_wr_iff (w : BusWord) (reg : Byte) (data : Word) :
    decodeBus48 w = .ok (.wr reg data) ↔ w = writeWord reg data := by
  rw [eq_writeWord_iff]
  rcases decodeBus48_cases w with ⟨hwf, e, hd⟩ | ⟨hwf, hw, hd⟩ | ⟨hwf, hw, hd⟩
  · simp [hd, hwf]
  · simp [hd, hwf, hw]
  · simp [hd, hw]

theorem decodeBus48_eq_rd_iff (w : BusWord) (reg : Byte) : decodeBus48 w = .ok (.rd reg) ↔ w = readWord reg := by
  rw [eq_readWord_iff]
  rcases decodeBus48_cases w with ⟨hwf, e, hd⟩ | ⟨hwf, hw, hd⟩ | ⟨hwf, hw, hd⟩
  · simp [hd, hwf]
  · simp [hd, hw]
  · simp [hd, hwf, hw]

/-- Settles O2: a word decodes to a transaction exactly when it is that transaction's word, whose number is known, and
is refused exactly when it fails a check of its fields. -/
theorem scriptWordsAreExactlyTheEncodings : Obligations.ScriptWordsAreExactlyTheEncodings := by
  refine fun w => ⟨fun reg data => ?write, fun reg => ?read, ?refused⟩
  case write => rw [decodeBus48_eq_wr_iff, ← BitVec.toNat_inj, writeWord_toNat]
  case read => rw [decodeBus48_eq_rd_iff, ← BitVec.toNat_inj, readWord_toNat]
  case refused =>
    rw [decodeBus48_eq_error_iff, ← Bool.not_eq_true, busWord_wellFormed_iff]
    omega

/-! ### The opcodes (R92, R93) -/

/-- The 13 opcodes of the map R92, by rising value. -/
def commandOpcodes : List Nat :=
  [0x00, 0x01, 0x10, 0x11, 0x12, 0x20, 0x21, 0x22, 0x23, 0x24, 0x25, 0x30, 0x31]

/-- The opcode decoder answers exactly the command of the opcode: the table R92 read in both directions. -/
theorem decodeCmd8_eq_ok_iff (op : Byte) (i : Instr) : decodeCmd8 op = .ok i ↔ opcode? i = some op := by
  refine ⟨opcode_of_decodeCmd8, fun hop => ?_⟩
  cases i <;> cases hop <;> rfl

/-- The bytes that decode, found by running the decoder on all 256. -/
theorem filter_decodeCmd8_isOk :
    (List.range 256).filter (fun n => (decodeCmd8 (BitVec.ofNat 8 n)).isOk) = commandOpcodes := by
  decide

/-- The opcode of an instruction is one of the 13. -/
theorem opcode_mem_commandOpcodes {i : Instr} {op : Byte} (hop : opcode? i = some op) : op.toNat ∈ commandOpcodes := by
  rw [← filter_decodeCmd8_isOk, List.mem_filter, List.mem_range, BitVec.ofNat_toNat, BitVec.setWidth_eq,
    (decodeCmd8_eq_ok_iff op i).mpr hop]
  exact ⟨op.isLt, rfl⟩

/-- The error entry RESERVED_OPCODE written out: class 4, sub-cause 1, the opcode as index (R224, R229). -/
theorem State.raise_reservedOpcode (s : State) (op : Byte) :
    s.raise (.reservedOpcode op) =
      { s with err := 4, einfo := BitVec.ofNat 32 (op.toNat * 256 + 1), estk := s.estk ||| 0b10000#5 } := by
  rw [State.raise, errInfo_eq_ofNat]
  rfl

/-- Dispatch of a byte outside the map is the error entry (R93): the other case of dispatch would make it an opcode. -/
theorem runCommand_reserved {op : Byte} (hop : op.toNat ∉ commandOpcodes) (s : State) :
    runCommand op s = .next (s.raise (.reservedOpcode op)) := by
  rcases runCommand_cases op s with ⟨i, hi, -⟩ | hraise
  · exact absurd (opcode_mem_commandOpcodes hi) hop
  · exact hraise

/-- Settles O6: the decoder and the opcode table are inverse, the decoder answers 13 bytes, and the write to `CMD` is
the dispatch of its low byte, which for a reserved one is the error entry. -/
theorem reservedOpcodesAreIllegalCommands : Obligations.ReservedOpcodesAreIllegalCommands := by
  refine ⟨decodeCmd8_eq_ok_iff, filter_decodeCmd8_isOk, fun s data hdata => ?_⟩
  have hlow : (data.setWidth 8).toNat = data.toNat % 256 := data.toNat_setWidth 8
  have hres : (data.setWidth 8).toNat ∉ commandOpcodes := hlow ▸ hdata
  rw [exec_wr_cmd, runCommand_reserved hres, State.raise_reservedOpcode, hlow]

/-! ### The alphabet (R95) -/

/-- Settles O16: a symbol's nibble is the one it stands for, and a code unit that has a nibble is its symbol. -/
theorem alphabetHasSixteenSymbols : Obligations.AlphabetHasSixteenSymbols :=
  ⟨fun n => ⟨nibOf_alphaChar n, rfl⟩, fun _ _ hn => alphaChar_of_nibOf hn⟩

end Sys2Proof.Machine

/-! PROOFS. The statements of the family "codec" (spec/40_codec.md): a patch encoded and decoded again is the patch
(R124), and the known vector (R127). -/

namespace Sys2Proof.Machine

open Sys2Proof

/-! ### The table R97 loses no bit

Encoding puts slices of the fields into the two parts of each nibble, and decoding joins the parts to fields again. So
two facts carry the law R124: a nibble gives back its parts, and the slices of a field, joined, are the field. -/

/-- Bits 2:0 of a nibble made of bit 3 and bits 2:0. -/
@[simp] theorem tri_nibble (b : BitVec 1) (t : BitVec 3) : tri (b ++ t : Nibble) 0 = t := by
  rw [tri, BitVec.extractLsb'_append_eq_of_add_le (by decide), BitVec.extractLsb'_eq_self]

/-- Bit 3 of a nibble made of bit 3 and bits 2:0. -/
@[simp] theorem bitOf_nibble (b : BitVec 1) (t : BitVec 3) : bitOf (b ++ t : Nibble) 3 = b := by
  rw [bitOf, BitVec.extractLsb'_append_eq_of_le (by decide)]
  exact BitVec.extractLsb'_eq_self

/-- A value or compare is the join of its slices. -/
@[simp] theorem byte_slices (x : Byte) : bitOf x 7 ++ tri x 4 ++ bitOf x 3 ++ tri x 0 = x := by
  simp only [bitOf, tri, BitVec.extractLsb'_append_extractLsb'_eq_extractLsb']
  exact BitVec.extractLsb'_eq_self

/-- A base is the join of its slices. -/
@[simp] theorem base_slices (x : BitVec 15) :
    tri x 12 ++ bitOf x 11 ++ tri x 8 ++ bitOf x 7 ++ tri x 4 ++ bitOf x 3 ++ tri x 0 = x := by
  simp only [bitOf, tri, BitVec.extractLsb'_append_extractLsb'_eq_extractLsb']
  exact BitVec.extractLsb'_eq_self

/-- `address = base + 0x8000` on decode undoes `base = address - 0x8000` on encode (R128): bit 15 of a legal address
is 1. -/
theorem address_of_baseOf {address : BitVec 16} (h : 0x8000 ≤ address.toNat) : 1#1 ++ baseOf address = address := by
  have hmsb : address.msb = true := by simpa [BitVec.msb_eq_decide] using h
  calc 1#1 ++ baseOf address
    _ = BitVec.cons address.msb (address.setWidth 15) := by rw [hmsb]; rfl
    _ = address := BitVec.cons_msb_setWidth address

/-- Decoding the nibbles of a patch with a legal address gives the patch (R124). -/
theorem decodeNibbles_encodeNibbles {p : Patch} (hp : 0x8000 ≤ p.address.toNat) :
    decodeNibbles (encodeNibbles p.address p.value p.compare) = p := by
  obtain ⟨address, value, compare⟩ := p
  cases compare with
  | none => simp [encodeNibbles, decodeNibbles, address_of_baseOf hp]
  | some compare => simp [encodeNibbles, decodeNibbles, address_of_baseOf hp]

/-! ### The code of a patch in the cells -/

theorem codeOfPatch_length (p : Patch) : (codeOfPatch p).length = if p.compare.isSome then 8 else 6 := by
  rw [codeOfPatch, List.length_map, encodeNibbles_length]

theorem codeOfPatch_length_le (p : Patch) : (codeOfPatch p).length ≤ 8 := by
  rw [codeOfPatch_length]
  split <;> decide

/-- The characters of a code read as the nibbles of its patch (R95). -/
theorem readNibbles_codeOfPatch (p : Patch) (i : Nat) :
    readNibbles (codeOfPatch p) i = .ok (encodeNibbles p.address p.value p.compare) :=
  readNibbles_map_alphaChar _ i

/-- Characters stored from cell 0 on are the first cells (R121). -/
theorem take_storeChars {chars : List Byte} {n : Nat} (hn : chars.length = n) (h : n ≤ 8) (k : Vector Byte 8) :
    (storeChars chars 0 k).toList.take n = chars := by
  refine List.ext_getElem (by simp [hn, h]) fun m _ hm => ?_
  have hcell := storeChars_get chars 0 k m (by omega)
  simpa [hm] using hcell

/-- Cells that hold the code of a patch decode to the patch (R123, R124). -/
theorem decodeCells_of_code {k : Vector Byte 8} {kl : BitVec 4} {p : Patch} (hp : 0x8000 ≤ p.address.toNat)
    (hkl : kl.toNat = (codeOfPatch p).length) (hk : k.toList.take kl.toNat = codeOfPatch p) :
    decodeCells k kl = .ok p := by
  rcases decodeCells_cases k kl with ⟨h6, h8, -⟩ | ⟨-, e, hr, -⟩ | ⟨-, ns, hr, hd⟩
  · rw [codeOfPatch_length] at hkl
    split at hkl <;> bv_omega
  · rw [hk, readNibbles_codeOfPatch] at hr
    cases hr
  · rw [hk, readNibbles_codeOfPatch] at hr
    cases hr
    rw [hd, decodeNibbles_encodeNibbles hp]

/-! ### The codec commands on legal operands -/

/-- The patch of ENC6: legal operands pass the checks, and `C` is not looked at (R121). -/
theorem State.operandPatch_false {s : State} (ha : addressLegal s.a = true) (hv : byteLegal s.v = true) :
    s.operandPatch false = .ok ⟨s.a.setWidth 16, s.v.setWidth 8, none⟩ := by
  simp [State.operandPatch, ha, hv]

/-- The patch of ENC8: legal operands pass the checks (R122). -/
theorem State.operandPatch_true {s : State} (ha : addressLegal s.a = true) (hv : byteLegal s.v = true)
    (hc : byteLegal s.c = true) :
    s.operandPatch true = .ok ⟨s.a.setWidth 16, s.v.setWidth 8, some (s.c.setWidth 8)⟩ := by
  simp [State.operandPatch, ha, hv, hc]

/-- An encode whose operands pass the checks stores the code of their patch. -/
theorem State.settle_encodeOperands {s : State} {withCompare : Bool} {p : Patch}
    (h : s.operandPatch withCompare = .ok p) :
    s.settle (s.encodeOperands withCompare) = (s.storeCode (codeOfPatch p)).succeed := by
  simp [State.encodeOperands, h]

theorem exec_enc6_of_operandPatch {s : State} {p : Patch} (h : s.operandPatch false = .ok p) :
    exec .enc6 s = .next (s.storeCode (codeOfPatch p)).succeed :=
  congrArg _ (State.settle_encodeOperands h)

theorem exec_enc8_of_operandPatch {s : State} {p : Patch} (h : s.operandPatch true = .ok p) :
    exec .enc8 s = .next (s.storeCode (codeOfPatch p)).succeed :=
  congrArg _ (State.settle_encodeOperands h)

/-- DEC stores the patch that the cells decode to (R123). -/
theorem exec_dec_of_decodeCells {s : State} {p : Patch} (h : decodeCells s.k s.kl = .ok p) :
    exec .dec s = .next (s.storePatch p).succeed := by
  rcases execDec_cases s with ⟨e, he, -⟩ | ⟨q, hq, hd⟩
  · rw [h] at he; cases he
  · rw [h] at hq; cases hq; exact hd

/-- DEC after an encode stores the encoded patch, whatever the state was (R124). -/
theorem exec_dec_storeCode {p : Patch} (hp : 0x8000 ≤ p.address.toNat) (s : State) :
    exec .dec (s.storeCode (codeOfPatch p)).succeed =
      .next ((s.storeCode (codeOfPatch p)).succeed.storePatch p).succeed := by
  have hlen := codeOfPatch_length_le p
  have hkl : (BitVec.ofNat 4 (codeOfPatch p).length).toNat = (codeOfPatch p).length := by
    rw [BitVec.toNat_ofNat, Nat.mod_eq_of_lt (by omega)]
  refine exec_dec_of_decodeCells (decodeCells_of_code hp hkl ?_)
  exact take_storeChars hkl.symm (by omega) s.k

/-! ### The round trip (R124) -/

/-- A register whose value fits `n` bits is its low `n` bits, zero-extended. -/
theorem setWidth_setWidth_of_lt {w n : Nat} {x : BitVec w} (h : x.toNat < 2 ^ n) : (x.setWidth n).setWidth w = x := by
  apply BitVec.eq_of_toNat_eq
  rw [BitVec.toNat_setWidth, BitVec.toNat_setWidth, Nat.mod_eq_of_lt h, Nat.mod_eq_of_lt x.isLt]

/-- Settles O24: the encode stores the code of the operands' patch, DEC stores that patch again, and the operands are
its fields zero-extended. -/
theorem encodeThenDecodeGivesThePatch : Obligations.EncodeThenDecodeGivesThePatch := by
  intro s hlo hhi hv
  have hal : addressLegal s.a = true := (addressLegal_iff s.a).mpr ⟨hlo, hhi⟩
  have hvl : byteLegal s.v = true := (byteLegal_iff s.v).mpr hv
  have ha : (s.a.setWidth 16).setWidth 32 = s.a := setWidth_setWidth_of_lt (by omega)
  have hv' : (s.v.setWidth 8).setWidth 32 = s.v := setWidth_setWidth_of_lt (by omega)
  have hp : 0x8000 ≤ (s.a.setWidth 16).toNat := by rw [BitVec.toNat_setWidth]; omega
  refine ⟨?enc6, fun hc => ?enc8⟩
  case enc6 =>
    refine ⟨_, _, exec_enc6_of_operandPatch (State.operandPatch_false hal hvl), exec_dec_storeCode hp s, ?_⟩
    exact ⟨ha, hv', rfl, rfl⟩
  case enc8 =>
    have hcl : byteLegal s.c = true := (byteLegal_iff s.c).mpr hc
    have hc' : (s.c.setWidth 8).setWidth 32 = s.c := setWidth_setWidth_of_lt (by omega)
    refine ⟨_, _, exec_enc8_of_operandPatch (State.operandPatch_true hal hvl hcl), exec_dec_storeCode hp s, ?_⟩
    exact ⟨ha, hv', hc', rfl, rfl⟩

/-! ### The known vector (R127) -/

/-- `"AAAAAA"`: the all-zero nibble array in the alphabet. -/
theorem codeOfPatch_zero : codeOfPatch ⟨0x8000, 0, none⟩ = [0x41#8, 0x41#8, 0x41#8, 0x41#8, 0x41#8, 0x41#8] := by
  decide

/-- `"AAEAAAAA"`: the flag of an 8-character code makes nibble 2 an 8. -/
theorem codeOfPatch_zero_compare :
    codeOfPatch ⟨0x8000, 0, some 0⟩ = [0x41#8, 0x41#8, 0x45#8, 0x41#8, 0x41#8, 0x41#8, 0x41#8, 0x41#8] := by decide

/-- Settles O17: the operands pass the checks, their patch has the code of the vector, and a stored code is the first
cells. -/
theorem knownVector : Obligations.KnownVector := by
  intro s ha hv
  have hal : addressLegal s.a = true := by rw [ha]; decide
  have hvl : byteLegal s.v = true := by rw [hv]; decide
  refine ⟨?enc6, fun hc => ?enc8⟩
  case enc6 =>
    have hp : s.operandPatch false = .ok ⟨0x8000, 0, none⟩ := by rw [State.operandPatch_false hal hvl, ha, hv]; rfl
    have hcells := take_storeChars (codeOfPatch_length ⟨0x8000, 0, none⟩) (by decide) s.k
    exact ⟨_, exec_enc6_of_operandPatch hp, rfl, hcells.trans codeOfPatch_zero⟩
  case enc8 =>
    have hcl : byteLegal s.c = true := by rw [hc]; decide
    have hp : s.operandPatch true = .ok ⟨0x8000, 0, some 0⟩ := by
      rw [State.operandPatch_true hal hvl hcl, ha, hv, hc]; rfl
    have hcells := take_storeChars (codeOfPatch_length ⟨0x8000, 0, some 0⟩) (by decide) s.k
    rw [List.take_of_length_le (by simp)] at hcells
    exact ⟨_, exec_enc8_of_operandPatch hp, rfl, hcells.trans codeOfPatch_zero_compare⟩

end Sys2Proof.Machine

/-! PROOFS. The statements of the family "scanner" (spec/42_scanner.md): the address of a candidate is the sum of the
hit location and the signed offset, wrapped into 32 KiB and rebiased into the CPU window (R67, R161, R167). -/

namespace Sys2Proof.Machine

open Sys2Proof

/-! ### The candidate address (R67, R161) -/

/-- The signed and the unsigned reading of an offset differ by a multiple of 2^32, which the modulus 32768 divides:
this is why the sum may be formed on natural numbers. -/
theorem add_toInt_emod_eq_add_toNat (h : Nat) (po : Word) :
    ((h : Int) + po.toInt) % 32768 = ((h + po.toNat) % 32768 : Nat) := by
  rw [BitVec.toInt_eq_toNat_cond]
  split
  case isTrue => omega
  case isFalse => omega

/-- R67 as code: the bias added to a residue of 15 bits does not overflow the register `A`. -/
theorem cand_toNat (h : Nat) (po : Word) : (cand h po).toNat = (h + po.toNat) % 32768 + 0x8000 := by
  have hlt : (h + po.toNat) % 32768 < 32768 := Nat.mod_lt _ (by decide)
  rw [cand, add_toInt_emod_eq_add_toNat, Int.toNat_natCast, BitVec.toNat_ofNat]
  exact Nat.mod_eq_of_lt (by omega)

/-- R161: without its bias a candidate is the sum on mathematical integers, reduced. -/
theorem cand_sub_bias (h : Nat) (po : Word) :
    ((cand h po).toNat : Int) - 0x8000 = ((h : Int) + po.toInt) % 32768 := by
  rw [add_toInt_emod_eq_add_toNat, cand_toNat]
  omega

/-- R167: of an offset only its residue matters. -/
theorem cand_congr (h : Nat) {po po' : Word} (hmod : po.toNat % 32768 = po'.toNat % 32768) :
    cand h po = cand h po' := by
  apply BitVec.eq_of_toNat_eq
  rw [cand_toNat, cand_toNat, Nat.add_mod, hmod, ← Nat.add_mod]

/-- Settles O41: the value of a candidate on natural numbers gives its window, and the two readings of the offset agree
modulo 32768. -/
theorem candidateIsWrappedAndRebiased : Obligations.CandidateIsWrappedAndRebiased := by
  intro h po po'
  have hval : (cand h po).toNat = (h + po.toNat) % 32768 + 0x8000 := cand_toNat h po
  have hlt : (h + po.toNat) % 32768 < 32768 := Nat.mod_lt _ (by decide)
  exact ⟨hval, cand_sub_bias h po, by omega, by omega, cand_congr h⟩

end Sys2Proof.Machine

/-! PROOFS. The statements of the family "system" (spec/43_system.md): NOP is a successful command with an empty body,
so all it does is the successful return (R182, R230). -/

namespace Sys2Proof.Machine

open Sys2Proof

/-- NOP performs the successful return and nothing before it (R182). -/
theorem exec_nop (s : State) : exec .nop s = .next s.succeed := rfl

/-- The frame of the successful return (R230): every field but the two error registers, `ESTK` included, is kept. -/
theorem State.succeed_eq (s : State) : s.succeed = { s with err := 0, einfo := 0 } := rfl

/-- Settles O13: NOP is the successful return alone, and that clears `ERR` and `EINFO` and keeps every other field. -/
theorem nopClearsErrAndEinfoOnly : Obligations.NopClearsErrAndEinfoOnly := by
  intro s
  rw [exec_nop, State.succeed_eq]

end Sys2Proof.Machine

/-! PROOFS. The statements of the family "exceptions" (spec/60_exceptions.md): `ESTK` is written by the error entry and
by a reset and by nothing else (R229, R231). -/

namespace Sys2Proof.Machine

open Sys2Proof

/-! ### What a command body has written where it succeeds

One inversion lemma per body: the state it hands to the successful return, written with the model's own updates. -/

theorem State.encodeOperands_ok {s t : State} {withCompare : Bool} (h : s.encodeOperands withCompare = .ok t) :
    ∃ p, s.operandPatch withCompare = .ok p ∧ t = s.storeCode (codeOfPatch p) := by
  unfold State.encodeOperands at h
  cases hp : s.operandPatch withCompare with
  | error e => rw [hp] at h; cases h
  | ok p => rw [hp] at h; cases h; exact ⟨p, rfl, rfl⟩

theorem State.readPayload_ok {s t : State} {off : Nat} (h : s.readPayload off = .ok t) :
    t = s.fillSnap.deliver (s.imgByte off) := by
  rcases s.readPayload_cases off with ⟨-, hr⟩ | ⟨-, hr⟩ <;> cases hr.symm.trans h
  rfl

theorem State.readBank_ok {s t : State} {r : Region} (h : s.readBank r = .ok t) :
    ∃ b, t = s.fillSnap.deliver b := by
  rcases s.readBank_cases r with ⟨-, hr⟩ | ⟨-, -, hr⟩ | ⟨-, -, hr⟩
  · cases hr.symm.trans h
  · cases hr.symm.trans h
  · exact ⟨_, State.readPayload_ok (hr.symm.trans h)⟩

theorem State.readBankAt_ok {s t : State} {r : Region} (h : s.readBankAt r = .ok t) :
    ∃ b, t = s.fillSnap.deliver b := by
  rcases s.readBankAt_cases r with ⟨-, hr⟩ | ⟨-, -, hr⟩ | ⟨-, -, hr⟩
  · cases hr.symm.trans h
  · cases hr.symm.trans h
  · exact ⟨_, State.readPayload_ok (hr.symm.trans h)⟩

theorem State.readRegion_ok {s t : State} (h : s.readRegion = .ok t) :
    t = s.deliver none ∨ ∃ b, t = s.fillSnap.deliver b := by
  rcases s.readRegion_cases with ⟨-, hr⟩ | ⟨-, hr⟩
  · cases hr.symm.trans h; exact .inl rfl
  · exact .inr ⟨_, State.readPayload_ok (hr.symm.trans h)⟩

theorem State.startScan_ok {s t : State} (h : s.startScan = .ok t) :
    t = { s with ss := .active, sj := 0, sp := 0, fnd := false } := by
  rcases s.startScan_cases with ⟨-, hr⟩ | ⟨-, _, -, hr⟩ | ⟨-, -, hr⟩ <;> cases hr.symm.trans h
  rfl

theorem State.scanNext_ok {s t : State} (h : s.scanNext = .ok t) :
    t = { s with fnd := false } ∨ (∃ j l, t = s.fillSnap.reportHit j l) ∨
      ∃ j, t = s.fillSnap.reportExhausted j := by
  rcases s.scanNext_cases with ⟨-, hr⟩ | ⟨-, hr⟩ | ⟨-, ⟨hr, -⟩ | ⟨j, l, -, hr⟩ | ⟨j, -, hr⟩⟩
  · cases hr.symm.trans h
  · exact .inl (Except.ok.inj (h.symm.trans hr))
  · cases hr.symm.trans h
  · exact .inr (.inl ⟨j, l, Except.ok.inj (h.symm.trans hr)⟩)
  · exact .inr (.inr ⟨j, Except.ok.inj (h.symm.trans hr)⟩)

/-! ### No command body writes the sticky bits -/

/-- A command body that, where it succeeds, leaves `ESTK`: what is raised is raised by the end of the command. -/
def KeepsSticky (body : State → Except CmdError State) : Prop :=
  ∀ s t : State, body s = .ok t → t.estk = s.estk

theorem encodeOperands_keepsSticky (withCompare : Bool) : KeepsSticky (·.encodeOperands withCompare) := by
  intro s t h
  obtain ⟨p, -, rfl⟩ := State.encodeOperands_ok h
  exact s.storeCode_estk _

theorem ensureHeader_keepsSticky : KeepsSticky State.ensureHeader := by
  intro s t h
  rcases State.ensureHeader_ok h with ⟨-, rfl⟩ | ⟨-, -, b4, b5, b6, -, -, -, rfl⟩
  · rfl
  · exact s.storeHeader_estk b4 b5 b6

/-- HDR does nothing after the header. -/
theorem ok_keepsSticky : KeepsSticky (fun s => .ok s) := by
  rintro s _ ⟨⟩
  rfl

theorem readBank_keepsSticky (r : Region) : KeepsSticky (·.readBank r) := by
  intro s t h
  obtain ⟨b, rfl⟩ := State.readBank_ok h
  simp

theorem readBankAt_keepsSticky (r : Region) : KeepsSticky (·.readBankAt r) := by
  intro s t h
  obtain ⟨b, rfl⟩ := State.readBankAt_ok h
  simp

theorem readRegion_keepsSticky : KeepsSticky State.readRegion := by
  intro s t h
  rcases State.readRegion_ok h with rfl | ⟨b, rfl⟩ <;> simp

theorem startScan_keepsSticky : KeepsSticky State.startScan := by
  intro s t h
  obtain rfl := State.startScan_ok h
  rfl

theorem scanNext_keepsSticky : KeepsSticky State.scanNext := by
  intro s t h
  rcases State.scanNext_ok h with rfl | ⟨j, l, rfl⟩ | ⟨j, rfl⟩ <;> simp

/-- `ESTK` is read-only (R35). -/
@[simp] theorem State.writeReg_estk (s : State) (r : Reg) (w : Word) : (s.writeReg r w).estk = s.estk := by
  cases r <;> rfl

/-! ### The two ends of a transaction that reports (R229, R230) -/

/-- `t` ends a transaction begun in `s` as far as `ERR` and `ESTK` show: by the successful return, which leaves the
sticky bits, or by an error entry, which adds the bit of its class. -/
def EndsWithReport (s t : State) : Prop :=
  (t.err = 0 ∧ t.estk = s.estk) ∨ ∃ e, t.err = errClass e ∧ t.estk = s.estk ||| errSticky e

theorem endsWithReport_raise (s : State) (e : CmdError) : EndsWithReport s (s.raise e) := .inr ⟨e, rfl, rfl⟩

/-- The draw counter is no error register (log 7). -/
theorem endsWithReport_nextDraw {s t : State} : EndsWithReport s t.nextDraw ↔ EndsWithReport s t := Iff.rfl

/-- Of the state a transaction begins in only `ESTK` matters. -/
theorem EndsWithReport.of_estk_eq {s s' t : State} (h : EndsWithReport s' t) (hs : s'.estk = s.estk) :
    EndsWithReport s t := by
  unfold EndsWithReport at h ⊢
  rwa [hs] at h

theorem endsWithReport_succeed {s t : State} (ht : t.estk = s.estk) : EndsWithReport s t.succeed := .inl ⟨rfl, ht⟩

/-- A command without a header parse reports how its body came out (R184). -/
theorem KeepsSticky.settle {body : State → Except CmdError State} (hb : KeepsSticky body) (s : State) :
    EndsWithReport s (s.settle (body s)) := by
  rcases s.settle_cases (body s) with ⟨t, ht, hs⟩ | ⟨e, -, hs⟩
  · exact hs ▸ endsWithReport_succeed (hb s t ht)
  · exact hs ▸ endsWithReport_raise s e

/-- A command that begins with `EnsureHeader()` reports a failed parse, or how its body came out in the state with the
parse kept, whose `ESTK` is the command's (R140). -/
theorem KeepsSticky.withHeader {body : State → Except CmdError State} (hb : KeepsSticky body) (s : State) :
    EndsWithReport s (s.withHeader body) := by
  unfold State.withHeader
  cases hp : s.ensureHeader with
  | error e => exact endsWithReport_nextDraw.mpr (endsWithReport_raise s e)
  | ok h => exact endsWithReport_nextDraw.mpr ((hb.settle h).of_estk_eq (ensureHeader_keepsSticky s h hp))

/-- Every command but RST reports, issued alone or reached through `CMD`. -/
theorem exec_command_endsWithReport {i : Instr} {op : Byte} {s t : State} (h : exec i s = .next t)
    (hop : opcode? i = some op) (hrst : i ≠ .rst) : EndsWithReport s t := by
  cases i with
  | nop => cases h; exact endsWithReport_succeed rfl
  | rst => exact absurd rfl hrst
  | enc6 => cases h; exact (encodeOperands_keepsSticky false).settle s
  | enc8 => cases h; exact (encodeOperands_keepsSticky true).settle s
  | dec =>
    rcases execDec_cases s with ⟨e, -, hd⟩ | ⟨p, -, hd⟩
    · cases hd.symm.trans h; exact endsWithReport_raise s e
    · cases hd.symm.trans h; exact endsWithReport_succeed (s.storePatch_estk p)
  | hdr => cases h; exact ok_keepsSticky.withHeader s
  | rdp => cases h; exact (readBank_keepsSticky .prg).withHeader s
  | rdc => cases h; exact (readBank_keepsSticky .chr).withHeader s
  | rdr => cases h; exact readRegion_keepsSticky.withHeader s
  | rdpa => cases h; exact (readBankAt_keepsSticky .prg).withHeader s
  | rdca => cases h; exact (readBankAt_keepsSticky .chr).withHeader s
  | scans => cases h; exact startScan_keepsSticky.withHeader s
  | scann => cases h; exact endsWithReport_nextDraw.mpr (scanNext_keepsSticky.settle s)
  | wr reg data => cases hop
  | rd reg => cases hop

/-! ### Which transactions report -/

/-- `CMD` has one number (R34). -/
theorem regOfNumber_eq_cmd_iff : ∀ reg : Byte, regOfNumber reg = some .cmd ↔ reg = 0x00#8 := by decide

/-- A write to a mapped register other than `CMD` reports nothing (R35). -/
theorem reportsOutcome_wr_mapped {reg : Byte} {r : Reg} (hreg : regOfNumber reg = some r) (hr : r ≠ .cmd)
    (data : Word) : reportsOutcome (.wr reg data) = false := by
  have hne : reg ≠ 0x00#8 := fun h0 => hr (Option.some.inj (hreg.symm.trans ((regOfNumber_eq_cmd_iff reg).mpr h0)))
  simp [reportsOutcome, hne, hreg]

/-- A bus write ends with the report of BAD_REG or of the command it issues, or reports nothing and leaves `ESTK`
(R180). -/
theorem execWr_sticky {reg : Byte} {data : Word} {s t : State} (hreset : isReset (.wr reg data) = false)
    (h : execWr reg data s = .next t) :
    EndsWithReport s t ∨ (reportsOutcome (.wr reg data) = false ∧ t.estk = s.estk) := by
  rcases execWr_cases reg data s with ⟨-, hw⟩ | ⟨hcmd, hw⟩ | ⟨r, hr, hreg, hw⟩ <;> rw [hw] at h
  · cases h; exact .inl (endsWithReport_raise s _)
  · left
    rcases runCommand_cases (data.setWidth 8) s with ⟨i, hop, hc⟩ | hc <;> rw [hc] at h
    · refine exec_command_endsWithReport h hop ?_
      rintro rfl
      have hrst : data.setWidth 8 = 0x01#8 := (Option.some.inj hop).symm
      simp [isReset, (regOfNumber_eq_cmd_iff reg).mp hcmd, hrst] at hreset
    · cases h; exact endsWithReport_raise s _
  · cases h; exact .inr ⟨reportsOutcome_wr_mapped hreg hr data, s.writeReg_estk r data⟩

/-- A bus read ends with the report of BAD_REG, or reports nothing and leaves `ESTK` (R181). -/
theorem execRd_sticky {reg : Byte} {s t : State} (h : execRd reg s = .next t) :
    EndsWithReport s t ∨ (reportsOutcome (.rd reg) = false ∧ t.estk = s.estk) := by
  rcases execRd_cases reg s with ⟨-, hr⟩ | ⟨r, hreg, hr⟩ <;> rw [hr] at h <;> cases h
  · exact .inl (.inr ⟨.badReg reg, rfl, rfl⟩)
  · exact .inr ⟨by simp [reportsOutcome, hreg], rfl⟩

/-- What any instruction but a reset does to the sticky bits (R231). -/
theorem exec_sticky {i : Instr} {s t : State} (hreset : isReset i = false) (h : exec i s = .next t) :
    EndsWithReport s t ∨ (reportsOutcome i = false ∧ t.estk = s.estk) := by
  cases i with
  | wr reg data => exact execWr_sticky hreset h
  | rd reg => exact execRd_sticky h
  | rst => cases hreset
  | nop | enc6 | enc8 | dec | hdr | rdp | rdc | rdr | rdpa | rdca | scans | scann =>
    exact .inl (exec_command_endsWithReport h rfl nofun)

/-! ### Set bits after a report (R231) -/

/-- The sticky bit of an error is the one bit of its class, and all classes fit the five bits (R32, R229). -/
theorem errSticky_getLsbD (e : CmdError) (n : Nat) : (errSticky e).getLsbD n = decide ((errClass e).toNat = n) := by
  have hfits : (errClass e).toNat < 5 := by
    have hrange := errClass_range e
    omega
  calc (errSticky e).getLsbD n
    _ = (BitVec.twoPow 5 (errClass e).toNat).getLsbD n := by rw [errSticky, BitVec.twoPow_eq]
    _ = decide ((errClass e).toNat = n) := by simp [BitVec.getLsbD_twoPow, hfits]

/-- An error entry leaves `ERR` not 0 (R220, R229). -/
theorem errClass_ne_zero (e : CmdError) : errClass e ≠ 0#3 := by
  intro h0
  have hrange := errClass_range e
  simp [h0] at hrange

/-- After a report a bit is set exactly when it was set before or is that of the class in `ERR`, an error's: the
successful return leaves 0 there. -/
theorem EndsWithReport.getLsbD_estk {s t : State} (h : EndsWithReport s t) (n : Nat) :
    t.estk.getLsbD n = true ↔ s.estk.getLsbD n = true ∨ (t.err ≠ 0 ∧ t.err.toNat = n) := by
  rcases h with ⟨herr, hestk⟩ | ⟨e, herr, hestk⟩
  · simp [herr, hestk]
  · simp [herr, hestk, errSticky_getLsbD, errClass_ne_zero e]

/-- Settles O53: an instruction that ends with a report sets the bit of the class in `ERR` and no other, and one that
reports nothing leaves `ESTK`. -/
theorem stickyBitsAreClearedOnlyByReset : Obligations.StickyBitsAreClearedOnlyByReset := by
  intro i s t n hreset h
  rcases exec_sticky hreset h with hend | ⟨hsilent, hestk⟩
  case inl =>
    have hbit := hend.getLsbD_estk
    refine ⟨fun hset => ?kept, fun hclear hset => ?newlySet, fun _ herr => ?reported⟩
    case kept => exact (hbit n).mpr (.inl hset)
    case reported => exact (hbit t.err.toNat).mpr (.inr ⟨herr, rfl⟩)
    case newlySet =>
      rcases (hbit n).mp hset with hold | ⟨-, hn⟩
      · exact absurd hold (by simp [hclear])
      · exact hn
  case inr =>
    rw [hestk, hsilent]
    exact ⟨id, fun hclear hset => absurd hset (by simp [hclear]), nofun⟩

end Sys2Proof.Machine

/-! PROOFS. Decoding inverts encoding (R92, R94), and a step carries out the host's next event (R5, R94, R250). -/

namespace Sys2Proof.Machine

open Sys2Proof

/-! ### Decoding inverts encoding (R92, R94) -/

/-- The word of a command is its opcode, in 8 bits (R91, R92). -/
theorem encode_of_opcode {i : Instr} {op : Byte} (hop : opcode? i = some op) : encode i = (8, op.toNat) := by
  cases i <;> cases hop <;> rfl

/-- An 8-bit word is read by the opcode map (R90). -/
theorem decodeBits_byte (op : Byte) : decodeBits 8 op.toNat = decodeCmd8 op := by
  have hfits : fitsBits 8 op.toNat = true := decide_eq_true op.isLt
  simp [decodeBits, hfits]

/-- A 48-bit word is read as a script word (R90). -/
theorem decodeBits_busWord (w : BusWord) : decodeBits 48 w.toNat = decodeBus48 w := by
  have hfits : fitsBits 48 w.toNat = true := decide_eq_true w.isLt
  simp [decodeBits, hfits]

/-- A command goes through the opcode map, a transaction through the script word; each is inverted in its format. -/
theorem decodeBits_encode (i : Instr) : decodeBits (encode i).1 (encode i).2 = .ok i := by
  cases i with
  | wr reg data => exact (decodeBits_busWord _).trans ((decodeBus48_eq_wr_iff _ reg data).mpr rfl)
  | rd reg => exact (decodeBits_busWord _).trans ((decodeBus48_eq_rd_iff _ reg).mpr rfl)
  | nop | rst | enc6 | enc8 | dec | hdr | rdp | rdc | rdr | rdpa | rdca | scans | scann =>
    rw [encode_of_opcode rfl, decodeBits_byte, decodeCmd8_eq_ok_iff]
    rfl

/-- Settles O1: both decoders read the word of an instruction, and the second is the first without its error. -/
theorem decodeInvertsEncode : Obligations.DecodeInvertsEncode := by
  intro i
  have hdec := decodeBits_encode i
  exact ⟨hdec, by rw [decodeTableWord, hdec]; rfl⟩

/-- Settles O3: each written-out word is the encoding of what it stands for, and encodings decode. -/
theorem writtenOutWordsDecode : Obligations.WrittenOutWordsDecode := by
  have hdec (i : Instr) : decodeTableWord (encode i).1 (encode i).2 = some i := (decodeInvertsEncode i).2
  exact ⟨hdec .nop, hdec .rst, hdec .enc6, hdec .enc8, hdec .dec, hdec .hdr, hdec .rdp, hdec .rdc, hdec .rdr,
    hdec .rdpa, hdec .rdca, hdec .scans, hdec .scann, hdec (.wr 0x08#8 0x000091D9#32), hdec (.rd 0x10#8)⟩

/-! ### A step, by the host's next event -/

/-- A script word that decodes runs its instruction (R9.1, R94). -/
theorem step_bus_of_ok {s : State} {w : BusWord} {rest : List HostEvent} {i : Instr}
    (hs : s.script = .bus w :: rest) (hw : decodeBus48 w = .ok i) : step s = exec i (s.takeEvent rest) := by
  simp [step, hs, hw]

/-- A word that is no script word is refused (R94). -/
theorem step_bus_of_error {s : State} {w : BusWord} {rest : List HostEvent} {e : DecodeError}
    (hs : s.script = .bus w :: rest) (hw : decodeBus48 w = .error e) : step s = .refused (.notScriptWord w) := by
  simp [step, hs, hw]

/-- A hardware reset is applied (R250). -/
theorem step_reset {s : State} {image : Image} {rest : List HostEvent} (hs : s.script = .reset image :: rest) :
    step s = .next ((s.takeEvent rest).hardReset image) := by
  simp [step, hs]

/-- With nothing to do the block is idle (R235 f). -/
theorem step_idle {s : State} (hs : s.script = []) : step s = .next s := by
  simp [step, hs]

/-- Settles O4: the four forms of the script are the four branches of a step. -/
theorem stepRunsTheDecodedInstruction : Obligations.StepRunsTheDecodedInstruction :=
  ⟨fun _ _ _ _ hs hw => step_bus_of_ok hs hw, fun _ _ _ _ hs hw => step_bus_of_error hs hw,
    fun _ _ _ hs => step_reset hs, fun _ hs => step_idle hs⟩

end Sys2Proof.Machine

/-! PROOFS. The bus transactions on mapped registers (R33 to R36, R180, R181), the pattern table (R28, R256) and RST
(R183, R252). -/

namespace Sys2Proof.Machine

open Sys2Proof

/-! ### The register map (R34) -/

/-- The number of a register is the one of the table. -/
theorem regOfNumber_regNumber (r : Reg) : regOfNumber (regNumber r) = some r := by
  cases r with
  | k i => revert i; decide
  | pb j k => revert j k; decide
  | plen j => revert j; decide
  | po j => revert j; decide
  | _ => rfl

/-- Only the number of a register maps to it: checked for all 256 numbers. -/
theorem regNumber_of_regOfNumber {n : Byte} {r : Reg} (hn : regOfNumber n = some r) : regNumber r = n := by
  have hall : ∀ n : Byte, (regOfNumber n).all (fun r => regNumber r = n) = true := by decide
  simpa [hn] using hall n

/-- Settles O7: the map and its table are inverse, and an indexed register's number does not overflow its byte. -/
theorem registerMapIsOneToOne : Obligations.RegisterMapIsOneToOne := by
  refine ⟨regOfNumber_regNumber, fun n r => regNumber_of_regOfNumber, fun r => ?_⟩
  cases r with
  | k i => simp only [regNumber, BitVec.toNat_ofNat]; omega
  | pb j k => simp only [regNumber, BitVec.toNat_ofNat]; omega
  | plen j => simp only [regNumber, BitVec.toNat_ofNat]; omega
  | po j => simp only [regNumber, BitVec.toNat_ofNat]; omega
  | _ => rfl

/-! ### Register writes (R28, R35) -/

/-- The other case of a bus write on a mapped number, `CMD` aside (R180). -/
theorem exec_wr_mapped {n : Byte} {r : Reg} (hn : regOfNumber n = some r) (hr : r ≠ .cmd) (w : Word) (s : State) :
    exec (.wr n w) s = .next (s.writeReg r w) := by
  rcases execWr_cases n w s with ⟨hnone, -⟩ | ⟨hcmd, -⟩ | ⟨r', -, hr', hw⟩
  · rw [hn] at hnone; cases hnone
  · rw [hn] at hcmd; exact absurd (Option.some.inj hcmd) hr
  · rw [hn] at hr'; cases hr'; exact hw

/-- Slot `i` after slot `j` was replaced (R28). -/
theorem State.slot_setSlot (s : State) (i j : Fin 8) (p : Slot) :
    (s.setSlot j p).slot i = if j = i then p else s.slot i := by
  simp [State.slot, State.setSlot, Vector.getElem_set, Fin.ext_iff]

/-- The slots after a write to each of the three kinds of slot register (R28). -/
theorem State.slot_writeReg_pb (s : State) (i j k : Fin 8) (w : Word) :
    (s.writeReg (.pb j k) w).slot i =
      if j = i then { s.slot j with pb := (s.slot j).pb.set k (w.setWidth 8) } else s.slot i :=
  s.slot_setSlot i j _

theorem State.slot_writeReg_plen (s : State) (i j : Fin 8) (w : Word) :
    (s.writeReg (.plen j) w).slot i = if j = i then { s.slot j with plen := w.setWidth 4 } else s.slot i :=
  s.slot_setSlot i j _

theorem State.slot_writeReg_po (s : State) (i j : Fin 8) (w : Word) :
    (s.writeReg (.po j) w).slot i = if j = i then { s.slot j with po := w } else s.slot i :=
  s.slot_setSlot i j _

/-- A read-write register holds the low bits of its width after a write (R35). -/
theorem State.readReg_writeReg_same (s : State) {r : Reg} (hr : regAccess r = .rw) (w : Word) :
    ((s.writeReg r w).readReg r).toNat = w.toNat % 2 ^ regWidth r := by
  have hw := w.isLt
  cases r with
  | a | v | c | bi | bo => exact (Nat.mod_eq_of_lt hw).symm
  | kl | np => simp [State.writeReg, State.readReg, regWidth]; omega
  | k i => simp [State.writeReg, State.readReg, regWidth]; omega
  | pb j k => simp [State.readReg, regWidth, State.slot_writeReg_pb]; omega
  | plen j => simp [State.readReg, regWidth, State.slot_writeReg_plen]; omega
  | po j => simpa [State.readReg, regWidth, State.slot_writeReg_po] using (Nat.mod_eq_of_lt hw).symm
  | cmd | err | einfo | estk | flags | d | prgn | chrn | trn | poff | imglen | hl | pi | sp | sj => cases hr

/-- No other register but the view `FLAGS` shows a write (R33, R35): registers of other fields do not look at what was
written, and an array of cells or slots keeps its other elements. -/
theorem State.readReg_writeReg_other (s : State) {r r' : Reg} (hne : r' ≠ r) (hflags : r' ≠ .flags) (w : Word) :
    (s.writeReg r w).readReg r' = s.readReg r' := by
  cases r with
  | k i =>
    cases r' with
    | k i' =>
      have hi : i.val ≠ i'.val := fun h => hne (congrArg Reg.k (Fin.ext h.symm))
      simp [State.writeReg, State.readReg, hi]
    | flags => contradiction
    | _ => rfl
  | pb j k =>
    cases r' with
    | pb j' k' =>
      have hk : j = j' → k.val ≠ k'.val := fun hj hk => hne (by rw [hj, Fin.ext hk])
      by_cases hj : j = j' <;> simp_all [State.readReg, State.slot_writeReg_pb]
    | plen j' | po j' => by_cases hj : j = j' <;> simp [State.readReg, State.slot_writeReg_pb, hj]
    | flags => contradiction
    | _ => rfl
  | plen j =>
    cases r' with
    | plen j' =>
      have hj : j ≠ j' := fun h => hne (congrArg Reg.plen h.symm)
      simp [State.readReg, State.slot_writeReg_plen, hj]
    | pb j' k' | po j' => by_cases hj : j = j' <;> simp [State.readReg, State.slot_writeReg_plen, hj]
    | flags => contradiction
    | _ => rfl
  | po j =>
    cases r' with
    | po j' =>
      have hj : j ≠ j' := fun h => hne (congrArg Reg.po h.symm)
      simp [State.readReg, State.slot_writeReg_po, hj]
    | pb j' k' | plen j' => by_cases hj : j = j' <;> simp [State.readReg, State.slot_writeReg_po, hj]
    | flags => contradiction
    | _ => rfl
  | a | v | c | kl | bi | bo | np => cases r' <;> first | rfl | contradiction
  | cmd | err | einfo | estk | flags | d | prgn | chrn | trn | poff | imglen | hl | pi | sp | sj => rfl

/-- A write to the pattern table or `NP` abandons the scan, and no other write does (R28). -/
theorem State.writeReg_ss (s : State) (r : Reg) (w : Word) :
    (s.writeReg r w).ss = if inPatternTable r then .idle else s.ss := by
  cases r <;> rfl

/-- The fields that no register write reaches. -/
theorem State.writeReg_frame (s : State) (r : Reg) (w : Word) :
    s.writeReg r w = { s.writeReg r w with
      cp := s.cp, fnd := s.fnd, eoff := s.eoff, hv := s.hv, snap := s.snap, img := s.img, params := s.params,
      draws := s.draws, reply := s.reply, script := s.script } := by
  cases r <;> rfl

/-- Settles O8: the write reads back in its own register and in no other, and the rest is the frame of a register
write. -/
theorem writeStoresTheLowBits : Obligations.WriteStoresTheLowBits := by
  intro s n r w hn hr
  have hcmd : r ≠ .cmd := by rintro rfl; cases hr
  have hframe := s.writeReg_frame r w
  refine ⟨_, exec_wr_mapped hn hcmd w s, s.readReg_writeReg_same hr w,
    fun r' hne hflags => s.readReg_writeReg_other hne hflags w, s.writeReg_ss r w, ?_⟩
  rw [hframe]
  exact ⟨rfl, rfl, rfl, rfl, rfl, rfl, rfl, rfl, rfl, rfl⟩

/-- A read-only register ignores a write (R35). -/
theorem State.writeReg_ro (s : State) {r : Reg} (hr : regAccess r = .ro) (w : Word) : s.writeReg r w = s := by
  cases r with
  | cmd | a | v | c | kl | k | bi | bo | np | pb | plen | po => cases hr
  | _ => rfl

/-- Settles O9: the write is a register write, which a read-only register ignores. -/
theorem writeToReadOnlyIsIgnored : Obligations.WriteToReadOnlyIsIgnored := by
  intro s n r w hn hr
  have hcmd : r ≠ .cmd := by rintro rfl; cases hr
  rw [exec_wr_mapped hn hcmd, State.writeReg_ro s hr]

/-! ### Register reads (R33, R35, R181) -/

/-- The other case of a bus read on a mapped number (R181). -/
theorem exec_rd_mapped {n : Byte} {r : Reg} (hn : regOfNumber n = some r) (s : State) :
    exec (.rd n) s = .next { s with reply := some (s.readReg r) } := by
  rcases execRd_cases n s with ⟨hnone, -⟩ | ⟨r', hr', hd⟩
  · rw [hn] at hnone; cases hnone
  · rw [hn] at hr'; cases hr'; exact hd

/-- `FLAGS` as a number (R33). -/
theorem State.flags_toNat (s : State) :
    s.flags.toNat = s.cp.toNat + 2 * s.fnd.toNat + 4 * s.eoff.toNat + 8 * s.hv.toNat +
      16 * (scanStateBits s.ss).toNat := by
  simp only [State.flags, bit, toNat_append_eq, BitVec.toNat_ofBool]
  omega

/-- Settles O11: the read puts the register on the bus, and zero-extension keeps its number. -/
theorem readReturnsTheRegister : Obligations.ReadReturnsTheRegister := by
  intro s n r hn
  refine ⟨_, exec_rd_mapped hn s, ?_⟩
  cases r with
  | flags =>
    have hlt := s.flags.isLt
    rw [State.readReg, BitVec.toNat_setWidth, Nat.mod_eq_of_lt (by omega), State.flags_toNat]
    cases s.ss <;> rfl
  | trn => cases htrn : s.trn <;> simp [State.readReg, bit, htrn]
  | err | estk | kl | k | d | prgn | chrn | np | pi | sj | pb | plen =>
    exact BitVec.toNat_setWidth_of_le (by decide)
  | cmd | einfo | a | v | c | bi | bo | poff | imglen | hl | sp | po => rfl

/-! ### A write to the pattern table abandons the scan (R28, R256) -/

/-- The error entry NO_SCAN written out (R224, R229). -/
theorem State.raise_noScan (s : State) :
    s.raise .noScan = { s with err := 4, einfo := 0x0004, estk := s.estk ||| 0b10000#5 } := by
  rw [State.raise, errInfo_eq_ofNat]
  rfl

/-- Without a scan SCANN is the error entry NO_SCAN (R163). -/
theorem exec_scann_idle {s : State} (hs : s.ss = .idle) : exec .scann s = .next (s.raise .noScan).nextDraw := by
  rcases s.scanNext_cases with ⟨-, h⟩ | ⟨h, -⟩ | ⟨h, -⟩
  · exact congrArg (fun r => Host.Outcome.next (s.settle r).nextDraw) h
  · rw [hs] at h; cases h
  · rw [hs] at h; cases h

/-- Settles O12: the write leaves `SS` IDLE, where SCANN is the error entry NO_SCAN. -/
theorem patternTableWriteAbandonsTheScan : Obligations.PatternTableWriteAbandonsTheScan := by
  intro s n r w hn hr
  have hcmd : r ≠ .cmd := by rintro rfl; cases hr
  have hidle : (s.writeReg r w).ss = .idle := by rw [State.writeReg_ss, hr]; rfl
  refine ⟨_, exec_wr_mapped hn hcmd w s, hidle, ?_⟩
  rw [exec_scann_idle hidle, State.raise_noScan]
  rfl

/-! ### RST and the hardware reset (R43, R183, R252) -/

/-- Settles O14: RST is the reset of the block, and the hardware reset is that reset with the image attached. -/
theorem rstZeroesEveryRegister : Obligations.RstZeroesEveryRegister := by
  intro s
  refine ⟨s.resetBlock, rfl, fun r hr => s.readReg_resetBlock hr, rfl, rfl, rfl, rfl, ?_⟩
  rintro u image rest hu rfl
  rw [step_reset hu]
  rfl

end Sys2Proof.Machine

/-! PROOFS. The invariant of the machine (R27, R39, R165, R225): the reset state has it (R43), and every step keeps
it. Each operation of the model either leaves the part of the state an invariant speaks of, and then the invariant of
the old state is that of the new one, or makes that part anew. -/

namespace Sys2Proof.Machine

open Sys2Proof

/-! ### The error registers (R31, R32, R225, R231) -/

/-- `EINFO` of an error fits its lower half and is not 0 (R225). -/
theorem errInfo_range (e : CmdError) : 0 < (errInfo e).toNat ∧ (errInfo e).toNat < 0x10000 := by
  have hidx := (errIdx e).isLt
  have hsub := (errSub e).isLt
  have hne := errSub_ne_zero e
  rw [errInfo_toNat]
  omega

theorem errInfo_ne_zero (e : CmdError) : errInfo e ≠ 0#32 := by
  intro h0
  have hrange := errInfo_range e
  simp [h0] at hrange

/-- The error entry leaves consistent error registers; of the sticky bits before it only bit 0 matters (R229). -/
theorem State.raise_errorInv {s : State} (h : s.ErrorInv) (e : CmdError) : (s.raise e).ErrorInv := by
  obtain ⟨-, -, -, hbit0, -⟩ := h
  have hclass := errClass_range e
  refine ⟨hclass.2, by simp [errClass_ne_zero, errInfo_ne_zero], (errInfo_range e).2, ?_, fun _ => ?_⟩
  · have : (errClass e).toNat ≠ 0 := by omega
    rw [State.raise_estk, BitVec.getLsbD_or, hbit0, errSticky_getLsbD]
    simpa using this
  · simp [errSticky_getLsbD]

/-- The successful return leaves consistent error registers (R230). -/
theorem State.succeed_errorInv {s : State} (h : s.ErrorInv) : s.succeed.ErrorInv := by
  obtain ⟨-, -, -, hbit0, -⟩ := h
  exact ⟨by simp, by simp, by simp, hbit0, by simp⟩

/-! ### The snapshot (R39) and the scan state (R165) -/

/-- Under the duty R254 what the snapshot takes or has is the image. -/
theorem State.snap_getD {s : State} (h : s.SnapInv) : s.snap.getD s.img = s.img := by
  rcases h with h | h <;> simp [h]

theorem State.fillSnap_snapInv {s : State} (h : s.SnapInv) : s.fillSnap.SnapInv :=
  .inr (congrArg some (State.snap_getD h))

/-- Without a scan nothing is claimed of one. -/
theorem State.scanInv_of_idle {s : State} (h : s.ss = .idle) : s.ScanInv := by
  simp [State.ScanInv, h]

/-- The pattern of a slot has as many bytes as the slot says (R28). -/
theorem Slot.bytes_length {p : Slot} (h : p.plen.toNat ≤ 8) : p.bytes.length = p.plen.toNat := by
  simp [Slot.bytes, h]

theorem Slot.lengthLegal_iff (p : Slot) : p.lengthLegal = true ↔ 1 ≤ p.plen.toNat ∧ p.plen.toNat ≤ 8 := by
  simp [Slot.lengthLegal]

/-- A hit lies wholly inside the region, not before the start of its search (R160). -/
theorem State.nextHit_some {s : State} {j start h : Nat} (hh : s.nextHit j start = .ok (some h)) :
    start ≤ h ∧ h + (s.slotAt j).bytes.length ≤ s.prgLen := by
  obtain ⟨hstart, hlt, -, -⟩ := State.firstHit_ok hh
  omega

/-- What SCANN can do in an active scan that meets the scan invariant (R163): the loop ends inside the active slots, or
at `NP`. -/
theorem State.scanNext_active {s : State} (hinv : s.ScanInv) (hs : s.ss = .active) :
    (s.scanNext = .error .ioFailure ∧ ∃ x, s.ioFails x = true) ∨
    (∃ j h, j < s.np.toNat ∧ h + (s.slotAt j).plen.toNat ≤ s.prgLen ∧
      s.scanNext = .ok (s.fillSnap.reportHit j h)) ∨
    s.scanNext = .ok (s.fillSnap.reportExhausted s.np.toNat) := by
  obtain ⟨hlegal, hpos, -⟩ := hinv
  obtain ⟨-, hnp, hlen⟩ := hlegal (by simp [hs])
  obtain ⟨hsj, -⟩ := hpos hs
  have hactive : s.activeSlots = s.np.toNat := Nat.min_eq_left hnp
  rcases s.scanNext_cases with ⟨h, -⟩ | ⟨h, -⟩ | ⟨-, hio | ⟨j, h, hseek, hnext⟩ | ⟨j, hseek, hnext⟩⟩
  · rw [hs] at h; cases h
  · rw [hs] at h; cases h
  · exact .inl hio
  · obtain ⟨-, hj, hhit, -⟩ := State.seekHit_ok hseek
    have hjnp : j < s.np.toNat := by omega
    have hin := (State.nextHit_some hhit).2
    rw [Slot.bytes_length ((Slot.lengthLegal_iff _).mp (hlen j hjnp)).2] at hin
    exact .inr (.inl ⟨j, h, hjnp, hin, hnext⟩)
  · obtain ⟨hj, -⟩ := State.seekHit_ok hseek
    have hjnp : j = s.np.toNat := by omega
    exact .inr (.inr (hjnp ▸ hnext))

/-- What a scan looks at is not what SCANN writes. -/
@[simp] theorem State.fillSnap_slotAt (s : State) (i : Nat) : s.fillSnap.slotAt i = s.slotAt i := rfl
@[simp] theorem State.fillSnap_prgLen (s : State) : s.fillSnap.prgLen = s.prgLen := rfl
@[simp] theorem State.reportHit_slotAt (s : State) (j h i : Nat) : (s.reportHit j h).slotAt i = s.slotAt i := by
  simp only [State.slotAt, State.reportHit_slots]
@[simp] theorem State.reportHit_prgLen (s : State) (j h : Nat) : (s.reportHit j h).prgLen = s.prgLen := by
  simp only [State.prgLen, State.reportHit_prgn, State.reportHit_img, State.reportHit_poff]

/-- A scan step moves the search position up, and not past the pattern (R164). -/
theorem stepBy_range (step : ScanStep) {len : Nat} (h : 1 ≤ len) : 1 ≤ stepBy step len ∧ stepBy step len ≤ len := by
  cases step with
  | matchLength => exact ⟨h, Nat.le_refl len⟩
  | one => exact ⟨Nat.le_refl 1, h⟩

/-- SCANN keeps the scan invariant where it succeeds: a hit lies in the region, and the next search starts at its end
or before (R163, R165). -/
theorem State.scanNext_scanInv {s t : State} (hinv : s.ScanInv) (h : s.scanNext = .ok t) : t.ScanInv := by
  cases hs : s.ss with
  | idle =>
    rcases s.scanNext_cases with ⟨-, hn⟩ | ⟨hd, -⟩ | ⟨ha, -⟩
    · cases hn.symm.trans h
    · rw [hs] at hd; cases hd
    · rw [hs] at ha; cases ha
  | done =>
    rcases s.scanNext_cases with ⟨hi, -⟩ | ⟨-, hn⟩ | ⟨ha, -⟩
    · rw [hs] at hi; cases hi
    · cases hn.symm.trans h; exact hinv
    · rw [hs] at ha; cases ha
  | active =>
    obtain ⟨hv, hnp, hlen⟩ := hinv.1 (by simp [hs])
    have hregion := s.prgLen_le
    rcases State.scanNext_active hinv hs with ⟨hn, -⟩ | ⟨j, l, hj, hin, hn⟩ | hn
    · cases hn.symm.trans h
    · have hstep := stepBy_range s.params.scanStep ((Slot.lengthLegal_iff _).mp (hlen j hj)).1
      obtain rfl := Except.ok.inj (h.symm.trans hn)
      refine ⟨fun _ => ?_, fun _ => ?_, fun hd => ?_⟩
      · simpa using ⟨hv, hnp, hlen⟩
      · simp
        omega
      · simp [hs] at hd
    · obtain rfl := Except.ok.inj (h.symm.trans hn)
      refine ⟨fun _ => ?_, fun ha => ?_, fun _ => ?_⟩
      · simpa using ⟨hv, hnp, hlen⟩
      · simp at ha
      · simp

/-! ### Updates that keep the invariant -/

theorem State.Inv.raise {s : State} (h : s.Inv) (e : CmdError) : (s.raise e).Inv := by
  obtain ⟨himg, hscript, hsnap, hheader, hscan, herror⟩ := h
  exact ⟨himg, hscript, hsnap, hheader, hscan, State.raise_errorInv herror e⟩

theorem State.Inv.succeed {s : State} (h : s.Inv) : s.succeed.Inv := by
  obtain ⟨himg, hscript, hsnap, hheader, hscan, herror⟩ := h
  exact ⟨himg, hscript, hsnap, hheader, hscan, State.succeed_errorInv herror⟩

theorem State.Inv.fillSnap {s : State} (h : s.Inv) : s.fillSnap.Inv := by
  obtain ⟨himg, hscript, hsnap, hheader, hscan, herror⟩ := h
  exact ⟨himg, hscript, State.fillSnap_snapInv hsnap, hheader, hscan, herror⟩

/-- The draw counter, the code cells, the patch registers, the byte read and the bus value stand in no invariant. -/
theorem State.Inv.nextDraw {s : State} (h : s.Inv) : s.nextDraw.Inv := h
theorem State.Inv.storeCode {s : State} (h : s.Inv) (chars : List Byte) : (s.storeCode chars).Inv := h
theorem State.Inv.storePatch {s : State} (h : s.Inv) (p : Patch) : (s.storePatch p).Inv := h
theorem State.Inv.deliver {s : State} (h : s.Inv) (r : Option Byte) : (s.deliver r).Inv := h
theorem State.Inv.withReply {s : State} (h : s.Inv) (r : Option Word) : State.Inv { s with reply := r } := h

/-- The events that stay in the script are events of the script. -/
theorem State.Inv.takeEvent {s : State} (h : s.Inv) {e : HostEvent} {rest : List HostEvent}
    (hs : s.script = e :: rest) : (s.takeEvent rest).Inv := by
  obtain ⟨himg, hscript, hsnap, hheader, hscan, herror⟩ := h
  refine ⟨himg, fun img hmem => hscript img ?_, hsnap, hheader, hscan, herror⟩
  rw [hs]
  exact List.mem_cons_of_mem e hmem

/-- After a reset the invariant asks only for canonical images (R43). -/
theorem State.resetBlock_inv {s : State} (himg : s.img.wf = true) (hscript : s.ScriptImagesWf) : s.resetBlock.Inv :=
  ⟨himg, hscript, .inl rfl, ⟨rfl, rfl, rfl, rfl⟩, State.scanInv_of_idle rfl,
    by simp, by simp, by simp, by simp, by simp⟩

/-- A hardware reset is the reset of the block on the image attached (R252). -/
theorem State.hardReset_inv {s : State} {image : Image} (himg : image.wf = true) (hscript : s.ScriptImagesWf) :
    (s.hardReset image).Inv :=
  State.resetBlock_inv (s := { s with img := image }) himg hscript

/-- A register write reaches the invariant only through the pattern table and `NP`, which abandon the scan (R28). -/
theorem State.Inv.writeReg {s : State} (h : s.Inv) (r : Reg) (w : Word) : (s.writeReg r w).Inv := by
  cases r with
  | np | pb | plen | po =>
    obtain ⟨himg, hscript, hsnap, hheader, -, herror⟩ := h
    exact ⟨himg, hscript, hsnap, hheader, State.scanInv_of_idle rfl, herror⟩
  | _ => exact h

/-- The header parse keeps the invariant: the header registers are the parse of the image, and without a header no scan
existed (R140, R165). -/
theorem State.Inv.ensureHeader {s h : State} (hinv : s.Inv) (hp : s.ensureHeader = .ok h) : h.Inv ∧ h.hv = true := by
  rcases State.ensureHeader_ok hp with ⟨hv, rfl⟩ | ⟨hv, hlen, b4, b5, b6, h4, h5, h6, rfl⟩
  · exact ⟨hinv, hv⟩
  · obtain ⟨himg, hscript, hsnap, -, hscan, herror⟩ := hinv
    rw [State.imgByte_eq hsnap] at h4 h5 h6
    have hidle : s.ss = .idle := by
      by_contra hne
      rw [(hscan.1 hne).1] at hv
      cases hv
    exact ⟨⟨himg, hscript, hsnap, ⟨hlen, h4, h5, ⟨b6, h6, rfl⟩, rfl⟩, State.scanInv_of_idle hidle, herror⟩, rfl⟩

/-! ### Commands that keep the invariant -/

/-- A command body that, with a header parsed, keeps the invariant where it succeeds. -/
def KeepsInv (body : State → Except CmdError State) : Prop :=
  ∀ s t : State, s.Inv → s.hv = true → body s = .ok t → t.Inv

theorem State.Inv.withHeader {body : State → Except CmdError State} (hb : KeepsInv body) {s : State} (h : s.Inv) :
    (s.withHeader body).Inv := by
  rcases s.withHeader_cases body with ⟨e, -, hs⟩ | ⟨u, e, hp, -, hs⟩ | ⟨u, t, hp, ht, hs⟩ <;> rw [hs]
  · exact (h.raise e).nextDraw
  · exact ((h.ensureHeader hp).1.raise e).nextDraw
  · obtain ⟨hu, hv⟩ := h.ensureHeader hp
    exact (hb u t hu hv ht).succeed.nextDraw

theorem readBank_keepsInv (r : Region) : KeepsInv (·.readBank r) := by
  intro s t h _ ht
  obtain ⟨b, rfl⟩ := State.readBank_ok ht
  exact h.fillSnap.deliver b

theorem readBankAt_keepsInv (r : Region) : KeepsInv (·.readBankAt r) := by
  intro s t h _ ht
  obtain ⟨b, rfl⟩ := State.readBankAt_ok ht
  exact h.fillSnap.deliver b

theorem readRegion_keepsInv : KeepsInv State.readRegion := by
  intro s t h _ ht
  rcases State.readRegion_ok ht with rfl | ⟨b, rfl⟩
  · exact h.deliver none
  · exact h.fillSnap.deliver b

/-- SCANS has checked what the invariant of a scan asks for (R162, R165). -/
theorem State.startScan_scanInv {s t : State} (hv : s.hv = true) (ht : s.startScan = .ok t) : t.ScanInv := by
  rcases s.startScan_cases with ⟨-, hr⟩ | ⟨-, _, -, hr⟩ | ⟨hnp, hbad, hr⟩ <;> cases hr.symm.trans ht
  have hlegal (j : Nat) (hj : j < s.np.toNat) : (s.slotAt j).lengthLegal = true :=
    State.badSlot_none hbad j (Nat.zero_le j) (by omega)
  exact ⟨fun _ => ⟨hv, hnp, hlegal⟩, fun _ => ⟨Nat.zero_le _, Nat.zero_le _⟩, nofun⟩

theorem startScan_keepsInv : KeepsInv State.startScan := by
  intro s t h hv ht
  obtain ⟨himg, hscript, hsnap, hheader, -, herror⟩ := h
  have hscan := State.startScan_scanInv hv ht
  obtain rfl := State.startScan_ok ht
  exact ⟨himg, hscript, hsnap, hheader, hscan, herror⟩

/-- SCANN's report of a hit reaches the invariant in the scan state alone. -/
theorem State.Inv.reportHit {s : State} (h : s.Inv) {j l : Nat} (hscan : (s.reportHit j l).ScanInv) :
    (s.reportHit j l).Inv := by
  obtain ⟨himg, hscript, hsnap, hheader, -, herror⟩ := h
  refine ⟨by simpa using himg, ?_, ?_, ?_, hscan, ?_⟩
  · simpa [State.ScriptImagesWf] using hscript
  · simpa [State.SnapInv] using hsnap
  · simpa [State.HeaderInv] using hheader
  · simpa [State.ErrorInv] using herror

/-- So does its report that the sequence is exhausted. -/
theorem State.Inv.reportExhausted {s : State} (h : s.Inv) {j : Nat} (hscan : (s.reportExhausted j).ScanInv) :
    (s.reportExhausted j).Inv := by
  obtain ⟨himg, hscript, hsnap, hheader, -, herror⟩ := h
  exact ⟨himg, hscript, hsnap, hheader, hscan, herror⟩

/-- SCANN writes scan registers, the candidate and the snapshot (R163). -/
theorem State.Inv.scanNext {s t : State} (h : s.Inv) (ht : s.scanNext = .ok t) : t.Inv := by
  obtain ⟨himg, hscript, hsnap, hheader, hscan, herror⟩ := id h
  have hscan' := State.scanNext_scanInv hscan ht
  rcases State.scanNext_ok ht with rfl | ⟨j, l, rfl⟩ | ⟨j, rfl⟩
  · exact ⟨himg, hscript, hsnap, hheader, hscan', herror⟩
  · exact h.fillSnap.reportHit hscan'
  · exact h.fillSnap.reportExhausted hscan'

/-- Every command keeps the invariant. -/
theorem State.Inv.exec_command {i : Instr} {op : Byte} {s t : State} (hinv : s.Inv) (h : exec i s = .next t)
    (hop : opcode? i = some op) : t.Inv := by
  cases i with
  | nop => cases h; exact hinv.succeed
  | rst => cases h; exact State.resetBlock_inv hinv.1 hinv.2.1
  | enc6 | enc8 =>
    cases h
    rcases s.settle_cases (s.encodeOperands _) with ⟨t, ht, hs⟩ | ⟨e, -, hs⟩ <;> rw [hs]
    · obtain ⟨p, -, rfl⟩ := State.encodeOperands_ok ht
      exact (hinv.storeCode _).succeed
    · exact hinv.raise e
  | dec =>
    rcases execDec_cases s with ⟨e, -, hd⟩ | ⟨p, -, hd⟩ <;> cases hd.symm.trans h
    · exact hinv.raise e
    · exact (hinv.storePatch p).succeed
  | hdr => cases h; exact hinv.withHeader (fun u t hu _ ht => by cases ht; exact hu)
  | rdp => cases h; exact hinv.withHeader (readBank_keepsInv .prg)
  | rdc => cases h; exact hinv.withHeader (readBank_keepsInv .chr)
  | rdr => cases h; exact hinv.withHeader readRegion_keepsInv
  | rdpa => cases h; exact hinv.withHeader (readBankAt_keepsInv .prg)
  | rdca => cases h; exact hinv.withHeader (readBankAt_keepsInv .chr)
  | scans => cases h; exact hinv.withHeader startScan_keepsInv
  | scann =>
    cases h
    rcases s.settle_cases s.scanNext with ⟨t, ht, hs⟩ | ⟨e, -, hs⟩ <;> rw [hs]
    · exact (hinv.scanNext ht).succeed.nextDraw
    · exact (hinv.raise e).nextDraw
  | wr reg data => cases hop
  | rd reg => cases hop

/-- Every instruction keeps the invariant. -/
theorem State.Inv.exec {i : Instr} {s t : State} (hinv : s.Inv) (h : exec i s = .next t) : t.Inv := by
  cases i with
  | wr reg data =>
    rcases execWr_cases reg data s with ⟨-, hw⟩ | ⟨-, hw⟩ | ⟨r, -, -, hw⟩
    · cases hw.symm.trans h; exact hinv.raise _
    · have hrun := hw.symm.trans h
      rcases runCommand_cases (data.setWidth 8) s with ⟨i, hop, hc⟩ | hc
      · exact hinv.exec_command (hc.symm.trans hrun) hop
      · cases hc.symm.trans hrun; exact hinv.raise _
    · cases hw.symm.trans h; exact hinv.writeReg r data
  | rd reg =>
    rcases execRd_cases reg s with ⟨-, hr⟩ | ⟨r, -, hr⟩ <;> cases hr.symm.trans h
    · exact (hinv.raise _).withReply _
    · exact hinv.withReply _
  | nop | rst | enc6 | enc8 | dec | hdr | rdp | rdc | rdr | rdpa | rdca | scans | scann =>
    exact hinv.exec_command h rfl

/-- Settles O48: an idle step leaves the state, a hardware reset attaches an image of the script, and a transaction
keeps the invariant from the state without its event. -/
theorem stepKeepsTheInvariant : Obligations.StepKeepsTheInvariant := by
  intro s t hinv h
  match hs : s.script with
  | [] => cases (step_idle hs).symm.trans h; exact hinv
  | .reset image :: rest =>
    cases (step_reset hs).symm.trans h
    have himg : image.wf = true := hinv.2.1 image (by simp [hs])
    exact State.hardReset_inv himg (hinv.takeEvent hs).2.1
  | .bus w :: rest =>
    cases hw : decodeBus48 w with
    | error e => cases (step_bus_of_error hs hw).symm.trans h
    | ok i => exact (hinv.takeEvent hs).exec ((step_bus_of_ok hs hw).symm.trans h)

/-- Settles O49: the reset state is its own reset, and its script and image are empty. -/
theorem resetHasTheInvariant : Obligations.ResetHasTheInvariant :=
  State.resetBlock_inv (s := State.reset) Image.empty_wf nofun

end Sys2Proof.Machine

/-! PROOFS. The codec commands (spec/40_codec.md): what ENC6 and ENC8 store (R121, R122), what DEC stores (R123), the
errors of both (R221, R222), and the laws R125. -/

namespace Sys2Proof.Machine

open Sys2Proof

/-! ### Slices of a field, as numbers and as bits (R7) -/

theorem tri_toNat {n : Nat} (x : BitVec n) (lo : Nat) : (tri x lo).toNat = x.toNat / 2 ^ lo % 8 := by
  simp [tri, Nat.shiftRight_eq_div_pow]

theorem bitOf_toNat {n : Nat} (x : BitVec n) (i : Nat) : (bitOf x i).toNat = x.toNat / 2 ^ i % 2 := by
  simp [bitOf, Nat.shiftRight_eq_div_pow]

/-- The four bits of a nibble made of bit 3 and bits 2:0 of a field. -/
theorem nibble_getLsbD {n : Nat} (b : BitVec 1) (x : BitVec n) (lo : Nat) :
    (b ++ tri x lo : Nibble).getLsbD 0 = x.getLsbD lo ∧ (b ++ tri x lo : Nibble).getLsbD 1 = x.getLsbD (lo + 1) ∧
      (b ++ tri x lo : Nibble).getLsbD 2 = x.getLsbD (lo + 2) ∧ (b ++ tri x lo : Nibble).getLsbD 3 = b.getLsbD 0 := by
  refine ⟨?_, ?_, ?_, ?_⟩ <;> simp only [BitVec.getLsbD_append, tri, BitVec.getLsbD_extractLsb'] <;> simp

theorem bitOf_getLsbD {n : Nat} (x : BitVec n) (i : Nat) : (bitOf x i).getLsbD 0 = x.getLsbD i := by
  simp [bitOf]

/-! ### The cells after an encode (R121, R122) -/

/-- A cell of the code holds the symbol of its nibble. -/
theorem State.storeCode_cell (s : State) {p : Patch} {m : Nat} (hm : m < 8) {n : Nibble}
    (hn : (encodeNibbles p.address p.value p.compare)[m]? = some n) :
    (s.storeCode (codeOfPatch p)).succeed.k[m] = alphaChar n := by
  obtain ⟨hlen, hget⟩ := List.getElem?_eq_some_iff.mp hn
  exact (storeChars_get (codeOfPatch p) 0 s.k m hm).trans (by simp [codeOfPatch, hlen, hget])

/-- A cell past the code keeps its contents. -/
theorem State.storeCode_cell_past (s : State) {p : Patch} {m : Nat} (hm : m < 8)
    (hlen : (codeOfPatch p).length ≤ m) : (s.storeCode (codeOfPatch p)).succeed.k[m] = s.k[m] := by
  refine (storeChars_get (codeOfPatch p) 0 s.k m hm).trans (if_neg ?_)
  omega

/-- So it holds the bits of its nibble, one row of the table R97. -/
theorem State.storeCode_cellHolds (s : State) {p : Patch} (m : Nat) (hm : m < 8) {w : Nat} {b : BitVec 1}
    {x : BitVec w} {lo : Nat}
    (hn : (encodeNibbles p.address p.value p.compare)[m]? = some (b ++ tri x lo)) :
    cellHolds (s.storeCode (codeOfPatch p)).succeed.k[m]
      (x.getLsbD lo) (x.getLsbD (lo + 1)) (x.getLsbD (lo + 2)) (b.getLsbD 0) :=
  ⟨b ++ tri x lo, by rw [s.storeCode_cell hm hn, nibOf_alphaChar], nibble_getLsbD b x lo⟩

/-- A row whose bit 3 is a bit of a field. -/
theorem State.storeCode_cellHolds_bit (s : State) {p : Patch} (m : Nat) (hm : m < 8) {w w' : Nat} {y : BitVec w'}
    {hi : Nat} {x : BitVec w} {lo : Nat}
    (hn : (encodeNibbles p.address p.value p.compare)[m]? = some (bitOf y hi ++ tri x lo)) :
    cellHolds (s.storeCode (codeOfPatch p)).succeed.k[m]
      (x.getLsbD lo) (x.getLsbD (lo + 1)) (x.getLsbD (lo + 2)) (y.getLsbD hi) :=
  bitOf_getLsbD y hi ▸ s.storeCode_cellHolds m hm hn

/-- The frame of a successful encode (R121, R122). -/
theorem State.storeCode_succeed_eq (s : State) (p : Patch) :
    (s.storeCode (codeOfPatch p)).succeed =
      { s with k := (s.storeCode (codeOfPatch p)).succeed.k, kl := if p.compare.isSome then 8 else 6,
               err := 0, einfo := 0 } := by
  have hkl : BitVec.ofNat 4 (codeOfPatch p).length = if p.compare.isSome then 8 else 6 := by
    rw [codeOfPatch_length]
    split <;> rfl
  rw [← hkl]
  rfl

/-- The low bits of the address register are the bits of the base (R128). -/
theorem getLsbD_eq_baseOf (a : Word) {i : Nat} (hi : i < 15) : a.getLsbD i = (baseOf (a.setWidth 16)).getLsbD i := by
  simp [baseOf, hi]

/-- The low bits of a byte operand's register are the bits of the byte. -/
theorem getLsbD_eq_byte (x : Word) {i : Nat} (hi : i < 8) : x.getLsbD i = (x.setWidth 8 : Byte).getLsbD i := by
  simp [hi]

/-- Settles O18: the six characters are the symbols of the rows of R97, whose bits are those of the registers. -/
theorem enc6StoresTheSixCharacterCode : Obligations.Enc6StoresTheSixCharacterCode := by
  intro s hlo hhi hv
  have hp := State.operandPatch_false ((addressLegal_iff s.a).mpr ⟨hlo, hhi⟩) ((byteLegal_iff s.v).mpr hv)
  simp (disch := decide) only [getLsbD_eq_baseOf s.a, getLsbD_eq_byte s.v]
  have hlen : (codeOfPatch ⟨s.a.setWidth 16, s.v.setWidth 8, none⟩).length = 6 := codeOfPatch_length _
  exact ⟨_, exec_enc6_of_operandPatch hp, s.storeCode_succeed_eq _,
    s.storeCode_cellHolds_bit 0 (by decide) rfl, s.storeCode_cellHolds_bit 1 (by decide) rfl,
    s.storeCode_cellHolds (b := 0#1) 2 (by decide) rfl, s.storeCode_cellHolds_bit 3 (by decide) rfl,
    s.storeCode_cellHolds_bit 4 (by decide) rfl, s.storeCode_cellHolds_bit 5 (by decide) rfl,
    s.storeCode_cell_past (m := 6) (by decide) (by omega), s.storeCode_cell_past (m := 7) (by decide) (by omega)⟩

/-- Settles O19: likewise for the eight rows of the longer code. -/
theorem enc8StoresTheEightCharacterCode : Obligations.Enc8StoresTheEightCharacterCode := by
  intro s hlo hhi hv hc
  have hp := State.operandPatch_true ((addressLegal_iff s.a).mpr ⟨hlo, hhi⟩) ((byteLegal_iff s.v).mpr hv)
    ((byteLegal_iff s.c).mpr hc)
  simp (disch := decide) only [getLsbD_eq_baseOf s.a, getLsbD_eq_byte s.v, getLsbD_eq_byte s.c]
  exact ⟨_, exec_enc8_of_operandPatch hp, s.storeCode_succeed_eq _,
    s.storeCode_cellHolds_bit 0 (by decide) rfl, s.storeCode_cellHolds_bit 1 (by decide) rfl,
    s.storeCode_cellHolds (b := 1#1) 2 (by decide) rfl, s.storeCode_cellHolds_bit 3 (by decide) rfl,
    s.storeCode_cellHolds_bit 4 (by decide) rfl, s.storeCode_cellHolds_bit 5 (by decide) rfl,
    s.storeCode_cellHolds_bit 6 (by decide) rfl, s.storeCode_cellHolds_bit 7 (by decide) rfl⟩

/-! ### Operands out of range (R222) -/

/-- An encode whose operands fail a check is the error entry. -/
theorem State.settle_encodeOperands_error {s : State} {withCompare : Bool} {e : CmdError}
    (h : s.operandPatch withCompare = .error e) : s.settle (s.encodeOperands withCompare) = s.raise e := by
  simp [State.encodeOperands, h]

theorem exec_enc6_of_error {s : State} {e : CmdError} (h : s.operandPatch false = .error e) :
    exec .enc6 s = .next (s.raise e) :=
  congrArg _ (State.settle_encodeOperands_error h)

theorem exec_enc8_of_error {s : State} {e : CmdError} (h : s.operandPatch true = .error e) :
    exec .enc8 s = .next (s.raise e) :=
  congrArg _ (State.settle_encodeOperands_error h)

theorem addressLegal_eq_false_iff (a : Word) : addressLegal a = false ↔ a.toNat < 0x8000 ∨ 0xFFFF < a.toNat := by
  rw [← Bool.not_eq_true, addressLegal_iff]
  omega

theorem byteLegal_eq_false_iff (w : Word) : byteLegal w = false ↔ 0xFF < w.toNat := by
  rw [← Bool.not_eq_true, byteLegal_iff]
  omega

/-- Settles O20: the checks stand in the order address, value, compare, and a failed one is the error entry. -/
theorem encodeReportsTheFirstOperandOutOfRange : Obligations.EncodeReportsTheFirstOperandOutOfRange := by
  refine fun s => ⟨fun ha => ?address, fun hlo hhi hv => ?value, fun hlo hhi hv hc => ?compare⟩
  case address =>
    have hbad (b : Bool) : s.operandPatch b = .error .address := by
      simp [State.operandPatch, (addressLegal_eq_false_iff s.a).mpr ha]
    exact ⟨exec_enc6_of_error (hbad false), exec_enc8_of_error (hbad true)⟩
  case value =>
    have hbad (b : Bool) : s.operandPatch b = .error .value := by
      simp [State.operandPatch, (addressLegal_iff s.a).mpr ⟨hlo, hhi⟩, (byteLegal_eq_false_iff s.v).mpr hv]
    exact ⟨exec_enc6_of_error (hbad false), exec_enc8_of_error (hbad true)⟩
  case compare =>
    refine exec_enc8_of_error (e := .compare) ?_
    simp [State.operandPatch, (addressLegal_iff s.a).mpr ⟨hlo, hhi⟩, (byteLegal_iff s.v).mpr hv,
      (byteLegal_eq_false_iff s.c).mpr hc]

/-! ### DEC (R123) -/

/-- The cells as a list. -/
theorem cells_toList (k : Vector Byte 8) : k.toList = [k[0], k[1], k[2], k[3], k[4], k[5], k[6], k[7]] := by
  refine List.ext_getElem (by simp) fun m hm _ => ?_
  rw [Vector.length_toList] at hm
  interval_cases m <;> simp

/-- Cells that hold the symbols of nibbles decode to the nibbles' patch. -/
theorem decodeCells_of_nibbles {k : Vector Byte 8} {kl : BitVec 4} {ns : List Nibble} (hkl : kl = 6 ∨ kl = 8)
    (hk : k.toList.take kl.toNat = ns.map alphaChar) : decodeCells k kl = .ok (decodeNibbles ns) := by
  have hread := readNibbles_map_alphaChar ns 0
  rcases decodeCells_cases k kl with ⟨h6, h8, -⟩ | ⟨-, e, hr, -⟩ | ⟨-, ms, hr, hd⟩
  · exact absurd hkl (not_or.mpr ⟨h6, h8⟩)
  · cases (hk ▸ hread).symm.trans hr
  · cases (hk ▸ hread).symm.trans hr
    exact hd

/-- The address of decoded nibbles, as a number (R97, R128). -/
theorem decodeNibbles_address_toNat (ns : List Nibble) :
    (decodeNibbles ns).address.toNat =
      0x8000 + (ns.getD 4 0).toNat % 8 + (ns.getD 3 0).toNat / 8 * 8 + (ns.getD 2 0).toNat % 8 * 16 +
        (ns.getD 1 0).toNat / 8 * 128 + (ns.getD 5 0).toNat % 8 * 256 + (ns.getD 4 0).toNat / 8 * 2048 +
        (ns.getD 3 0).toNat % 8 * 4096 := by
  simp only [decodeNibbles, toNat_append_eq, tri_toNat, bitOf_toNat, BitVec.toNat_ofNat]
  omega

/-- The value of decoded nibbles: its bit 3 stands in the last nibble (R97). -/
theorem decodeNibbles_value_toNat (ns : List Nibble) :
    (decodeNibbles ns).value.toNat =
      (ns.getD 0 0).toNat % 8 + (ns.getD (if ns.length = 8 then 7 else 5) 0).toNat / 8 * 8 +
        (ns.getD 1 0).toNat % 8 * 16 + (ns.getD 0 0).toNat / 8 * 128 := by
  by_cases h : ns.length = 8 <;>
    simp only [decodeNibbles, toNat_append_eq, tri_toNat, bitOf_toNat, h, if_true, if_false] <;> omega

/-- The compare of decoded nibbles, as a number (R97). -/
theorem decodeNibbles_compare (ns : List Nibble) (h : ns.length = 8) :
    ∃ c, (decodeNibbles ns).compare = some c ∧
      c.toNat = (ns.getD 6 0).toNat % 8 + (ns.getD 5 0).toNat / 8 * 8 + (ns.getD 7 0).toNat % 8 * 16 +
        (ns.getD 6 0).toNat / 8 * 128 := by
  refine ⟨_, if_pos h, ?_⟩
  simp only [toNat_append_eq, tri_toNat, bitOf_toNat]
  omega

/-- Settles O21: DEC stores the patch of the six nibbles, zero-extended. -/
theorem decDecodesSixCharacters : Obligations.DecDecodesSixCharacters := by
  intro s n0 n1 n2 n3 n4 n5 hkl h0 h1 h2 h3 h4 h5
  have hk : s.k.toList.take s.kl.toNat = [n0, n1, n2, n3, n4, n5].map alphaChar := by
    simp [cells_toList, hkl, h0, h1, h2, h3, h4, h5]
  refine ⟨_, exec_dec_of_decodeCells (decodeCells_of_nibbles (.inl hkl) hk), rfl, ?_, ?_⟩
  · exact (BitVec.toNat_setWidth_of_le (by decide)).trans (decodeNibbles_address_toNat _)
  · exact (BitVec.toNat_setWidth_of_le (by decide)).trans (decodeNibbles_value_toNat _)

/-- Settles O22: likewise for the eight nibbles, with the compare. -/
theorem decDecodesEightCharacters : Obligations.DecDecodesEightCharacters := by
  intro s n0 n1 n2 n3 n4 n5 n6 n7 hkl h0 h1 h2 h3 h4 h5 h6 h7
  have hk : s.k.toList.take s.kl.toNat = [n0, n1, n2, n3, n4, n5, n6, n7].map alphaChar := by
    simp [cells_toList, hkl, h0, h1, h2, h3, h4, h5, h6, h7]
  obtain ⟨c, hc, hcnum⟩ := decodeNibbles_compare [n0, n1, n2, n3, n4, n5, n6, n7] rfl
  refine ⟨_, exec_dec_of_decodeCells (decodeCells_of_nibbles (.inr hkl) hk), rfl, ?_, ?_, ?_⟩
  · exact (BitVec.toNat_setWidth_of_le (by decide)).trans (decodeNibbles_address_toNat _)
  · exact (BitVec.toNat_setWidth_of_le (by decide)).trans (decodeNibbles_value_toNat _)
  · rw [State.succeed_c, State.storePatch_c, hc]
    exact (BitVec.toNat_setWidth_of_le (by decide)).trans hcnum

/-! ### Codes that do not decode (R221) -/

/-- DEC of cells that do not decode is the error entry. -/
theorem exec_dec_of_error {s : State} {e : CmdError} (h : decodeCells s.k s.kl = .error e) :
    exec .dec s = .next (s.raise e) := by
  rcases execDec_cases s with ⟨e', he, hd⟩ | ⟨p, hp, -⟩
  · cases he.symm.trans h; exact hd
  · cases hp.symm.trans h

/-- A length that is no code's is reported before any character is looked at. -/
theorem decodeCells_badLength {k : Vector Byte 8} {kl : BitVec 4} (h6 : kl ≠ 6) (h8 : kl ≠ 8) :
    decodeCells k kl = .error (.badLength kl) :=
  if_pos ⟨h6, h8⟩

/-- The error entries of R221 written out. -/
theorem State.raise_badLength (s : State) (kl : BitVec 4) :
    s.raise (.badLength kl) =
      { s with err := 1, einfo := BitVec.ofNat 32 (kl.toNat * 256 + 1), estk := s.estk ||| 0b00010#5 } := by
  have hkl : (kl.setWidth 8).toNat = kl.toNat := BitVec.toNat_setWidth_of_le (by decide)
  rw [State.raise, errInfo_eq_ofNat, errIdx, hkl]
  rfl

theorem State.raise_badChar (s : State) {i : Nat} (hi : i < 256) :
    s.raise (.badChar i) =
      { s with err := 1, einfo := BitVec.ofNat 32 (i * 256 + 2), estk := s.estk ||| 0b00010#5 } := by
  rw [State.raise, errInfo_eq_ofNat, errIdx, BitVec.toNat_ofNat, Nat.mod_eq_of_lt hi]
  rfl

/-- The lowest character outside the alphabet is the one DEC reports. -/
theorem readNibbles_eq_error {chars : List Byte} {i : Nat} (hi : i < chars.length) (hbad : nibOf chars[i] = none)
    (hlow : ∀ j, ∀ hj : j < i, nibOf (chars[j]'(by omega)) ≠ none) :
    readNibbles chars 0 = .error (.badChar i) := by
  cases hr : readNibbles chars 0 with
  | ok ns =>
    have hall := congrArg (·[i]?) (readNibbles_ok hr)
    simp [hi, hbad] at hall
  | error e =>
    obtain ⟨m, hm, rfl, hmbad, hmlow⟩ := readNibbles_error hr
    have hmi : m = i := by
      rcases Nat.lt_trichotomy m i with h | h | h
      · exact absurd hmbad (hlow m h)
      · exact h
      · exact absurd hbad (hmlow i h)
    rw [hmi, Nat.zero_add]

/-- Settles O23: the length is tested first, and of the characters of the code the first bad one is reported. -/
theorem decReportsLengthThenFirstBadCharacter : Obligations.DecReportsLengthThenFirstBadCharacter := by
  refine fun s => ⟨fun h6 h8 => ?length, fun i hkl hi hbad hlow => ?character⟩
  case length => rw [exec_dec_of_error (decodeCells_badLength h6 h8), State.raise_badLength]
  case character =>
    have hkl8 : s.kl.toNat ≤ 8 := by rcases hkl with h | h <;> simp [h]
    have hread : readNibbles (s.k.toList.take s.kl.toNat) 0 = .error (.badChar i.val) := by
      refine readNibbles_eq_error (by simp; omega) (by simpa using hbad) fun j hj => ?_
      simpa using hlow ⟨j, by omega⟩ hj
    have hdec : decodeCells s.k s.kl = .error (.badChar i.val) := by
      rcases decodeCells_cases s.k s.kl with ⟨h6, h8, -⟩ | ⟨-, e, hr, hd⟩ | ⟨-, ns, hr, -⟩
      · exact absurd hkl (not_or.mpr ⟨h6, h8⟩)
      · cases hr.symm.trans hread; exact hd
      · cases hr.symm.trans hread
    rw [exec_dec_of_error hdec, State.raise_badChar s (by omega)]

/-! ### Injectivity (R125) -/

/-- The patch that passes the checks of an encode: it is legal, and the operand registers are its fields,
zero-extended (R222). -/
theorem State.operandPatch_ok {s : State} {withCompare : Bool} {p : Patch} (h : s.operandPatch withCompare = .ok p) :
    0x8000 ≤ p.address.toNat ∧ s.a = p.address.setWidth 32 ∧ s.v = p.value.setWidth 32 ∧
      p.compare.isSome = withCompare ∧ ∀ c, p.compare = some c → s.c = c.setWidth 32 := by
  rcases s.operandPatch_cases withCompare with ⟨-, hr⟩ | ⟨-, -, hr⟩ | ⟨-, -, -, -, hr⟩ | ⟨ha, hv, hc, hr⟩ <;>
    cases hr.symm.trans h
  obtain ⟨hlo, hhi⟩ := (addressLegal_iff s.a).mp ha
  have hvle := (byteLegal_iff s.v).mp hv
  refine ⟨?_, ?_, ?_, ?_, ?_⟩
  · rw [BitVec.toNat_setWidth]; omega
  · exact (setWidth_setWidth_of_lt (by omega)).symm
  · exact (setWidth_setWidth_of_lt (by omega)).symm
  · cases withCompare <;> rfl
  · intro c hsome
    cases withCompare with
    | false => cases hsome
    | true =>
      have hcle := (byteLegal_iff s.c).mp (hc rfl)
      cases hsome
      exact (setWidth_setWidth_of_lt (by omega)).symm

/-- An encode that ends without an error has stored the code of the operands' patch. -/
theorem State.settle_encodeOperands_ok {s : State} {withCompare : Bool}
    (h : (s.settle (s.encodeOperands withCompare)).err = 0) :
    ∃ p, s.operandPatch withCompare = .ok p ∧
      s.settle (s.encodeOperands withCompare) = (s.storeCode (codeOfPatch p)).succeed := by
  cases hp : s.operandPatch withCompare with
  | ok p => exact ⟨p, rfl, State.settle_encodeOperands hp⟩
  | error e =>
    rw [State.settle_encodeOperands_error hp] at h
    exact absurd h (errClass_ne_zero e)

/-- A legal patch is determined by its code: decoding gives it back (R124). -/
theorem codeOfPatch_injective {p q : Patch} (hp : 0x8000 ≤ p.address.toNat) (hq : 0x8000 ≤ q.address.toNat)
    (h : codeOfPatch p = codeOfPatch q) : p = q := by
  have hn := (readNibbles_codeOfPatch p 0).symm.trans (h ▸ readNibbles_codeOfPatch q 0)
  rw [← decodeNibbles_encodeNibbles hp, Except.ok.inj hn, decodeNibbles_encodeNibbles hq]

/-- Two encodes of one length that end without an error and leave the same code had the same operands. -/
theorem encode_injective {s s' : State} {withCompare : Bool}
    (h : (s.settle (s.encodeOperands withCompare)).err = 0)
    (h' : (s'.settle (s'.encodeOperands withCompare)).err = 0)
    (hk : (s.settle (s.encodeOperands withCompare)).k.toList.take (if withCompare then 8 else 6) =
      (s'.settle (s'.encodeOperands withCompare)).k.toList.take (if withCompare then 8 else 6)) :
    s.a = s'.a ∧ s.v = s'.v ∧ (withCompare = true → s.c = s'.c) := by
  obtain ⟨p, hp, hs⟩ := State.settle_encodeOperands_ok h
  obtain ⟨q, hq, hs'⟩ := State.settle_encodeOperands_ok h'
  obtain ⟨hpa, ha, hv, hsome, hc⟩ := State.operandPatch_ok hp
  obtain ⟨hqa, ha', hv', hsome', hc'⟩ := State.operandPatch_ok hq
  have hlen : (if withCompare then 8 else 6) ≤ 8 := by split <;> decide
  rw [hs, hs'] at hk
  have hcells := take_storeChars (hsome ▸ codeOfPatch_length p) hlen s.k
  have hcells' := take_storeChars (hsome' ▸ codeOfPatch_length q) hlen s'.k
  have hcode : codeOfPatch p = codeOfPatch q := hcells.symm.trans (hk.trans hcells')
  obtain rfl := codeOfPatch_injective hpa hqa hcode
  refine ⟨ha.trans ha'.symm, hv.trans hv'.symm, fun hb => ?_⟩
  obtain ⟨c, hpc⟩ := Option.isSome_iff_exists.mp (hsome.trans hb)
  exact (hc c hpc).trans (hc' c hpc).symm

/-- Settles O26: equal cells are equal codes, and encodes that leave equal codes had equal operands. -/
theorem encodeIsInjective : Obligations.EncodeIsInjective := by
  refine fun s s' t t' => ⟨fun h h' herr herr' hk => ?enc6, fun h h' herr herr' hk => ?enc8⟩
  case enc6 =>
    cases h
    cases h'
    have htake : (s.settle (s.encodeOperands false)).k.toList.take 6 =
        (s'.settle (s'.encodeOperands false)).k.toList.take 6 := by
      refine List.ext_getElem (by simp) fun m hm _ => ?_
      have hm6 : m < 6 := by simpa using hm
      simpa using hk ⟨m, by omega⟩ hm6
    obtain ⟨ha, hv, -⟩ := encode_injective herr herr' htake
    exact ⟨ha, hv⟩
  case enc8 =>
    cases h
    cases h'
    obtain ⟨ha, hv, hc⟩ := encode_injective herr herr' (congrArg (·.toList.take 8) hk)
    exact ⟨ha, hv, hc rfl⟩

/-! ### A code decoded and encoded again (R125) -/

/-- The parts of a byte joined from a bit, three bits, a bit and three bits. -/
theorem byte_parts (b7 b3 : BitVec 1) (t4 t0 : BitVec 3) :
    bitOf (b7 ++ t4 ++ b3 ++ t0 : Byte) 7 = b7 ∧ tri (b7 ++ t4 ++ b3 ++ t0 : Byte) 4 = t4 ∧
      bitOf (b7 ++ t4 ++ b3 ++ t0 : Byte) 3 = b3 ∧ tri (b7 ++ t4 ++ b3 ++ t0 : Byte) 0 = t0 := by
  have h7 := b7.isLt
  have h3 := b3.isLt
  have h4 := t4.isLt
  have h0 := t0.isLt
  refine ⟨?_, ?_, ?_, ?_⟩ <;> apply BitVec.eq_of_toNat_eq <;>
    simp only [bitOf_toNat, tri_toNat, toNat_append_eq] <;> omega

/-- The parts of a base. -/
theorem base_parts (t12 t8 t4 t0 : BitVec 3) (b11 b7 b3 : BitVec 1) :
    tri (t12 ++ b11 ++ t8 ++ b7 ++ t4 ++ b3 ++ t0 : BitVec 15) 12 = t12 ∧
      bitOf (t12 ++ b11 ++ t8 ++ b7 ++ t4 ++ b3 ++ t0 : BitVec 15) 11 = b11 ∧
      tri (t12 ++ b11 ++ t8 ++ b7 ++ t4 ++ b3 ++ t0 : BitVec 15) 8 = t8 ∧
      bitOf (t12 ++ b11 ++ t8 ++ b7 ++ t4 ++ b3 ++ t0 : BitVec 15) 7 = b7 ∧
      tri (t12 ++ b11 ++ t8 ++ b7 ++ t4 ++ b3 ++ t0 : BitVec 15) 4 = t4 ∧
      bitOf (t12 ++ b11 ++ t8 ++ b7 ++ t4 ++ b3 ++ t0 : BitVec 15) 3 = b3 ∧
      tri (t12 ++ b11 ++ t8 ++ b7 ++ t4 ++ b3 ++ t0 : BitVec 15) 0 = t0 := by
  have h12 := t12.isLt
  have h8 := t8.isLt
  have h4 := t4.isLt
  have h0 := t0.isLt
  have h11 := b11.isLt
  have h7 := b7.isLt
  have h3 := b3.isLt
  refine ⟨?_, ?_, ?_, ?_, ?_, ?_, ?_⟩ <;> apply BitVec.eq_of_toNat_eq <;>
    simp only [bitOf_toNat, tri_toNat, toNat_append_eq] <;> omega

/-- A nibble is the join of its two parts. -/
theorem nibble_slices (n : Nibble) : bitOf n 3 ++ tri n 0 = n := by
  have h := n.isLt
  apply BitVec.eq_of_toNat_eq
  simp only [toNat_append_eq, bitOf_toNat, tri_toNat]
  omega

/-- The base of a decoded address is what was joined to bit 15 (R128). -/
theorem baseOf_append (base : BitVec 15) : baseOf (1#1 ++ base) = base := by
  have h := base.isLt
  apply BitVec.eq_of_toNat_eq
  simp only [baseOf, BitVec.toNat_setWidth, toNat_append_eq]
  omega

/-- Encoding decoded nibbles gives them back, but for bit 3 of nibble 2, which becomes the length flag (R99, R125). -/
theorem encodeNibbles_decodeNibbles {ns : List Nibble} (h : ns.length = 6 ∨ ns.length = 8) :
    encodeNibbles (decodeNibbles ns).address (decodeNibbles ns).value (decodeNibbles ns).compare =
      ns.set 2 ((if ns.length = 8 then 1#1 else 0#1) ++ tri (ns.getD 2 0) 0) := by
  match ns, h with
  | [n0, n1, n2, n3, n4, n5], _ =>
    simp [decodeNibbles, encodeNibbles, baseOf_append, base_parts, byte_parts, nibble_slices]
  | [n0, n1, n2, n3, n4, n5, n6, n7], _ =>
    simp [decodeNibbles, encodeNibbles, baseOf_append, base_parts, byte_parts, nibble_slices]

/-- A decoded address is legal (R128). -/
theorem decodeNibbles_address_legal (ns : List Nibble) : 0x8000 ≤ (decodeNibbles ns).address.toNat := by
  rw [decodeNibbles_address_toNat]
  omega

/-- A code has a compare exactly when it has 8 characters (R96). -/
theorem decodeNibbles_compare_isSome (ns : List Nibble) :
    (decodeNibbles ns).compare.isSome = decide (ns.length = 8) := by
  by_cases h : ns.length = 8 <;> simp [decodeNibbles, h]

/-- The register of a legal patch's address passes the check, and so does that of any byte (R222). -/
theorem addressLegal_setWidth {address : BitVec 16} (h : 0x8000 ≤ address.toNat) :
    addressLegal (address.setWidth 32) = true := by
  have hlt := address.isLt
  rw [addressLegal_iff, BitVec.toNat_setWidth_of_le (by decide)]
  exact ⟨h, by omega⟩

theorem byteLegal_setWidth (x : Byte) : byteLegal (x.setWidth 32) = true := by
  have hlt := x.isLt
  rw [byteLegal_iff, BitVec.toNat_setWidth_of_le (by decide)]
  omega

/-- Operand registers that hold a legal patch pass the checks as that patch. -/
theorem State.operandPatch_of_patch {s : State} {p : Patch} (hp : 0x8000 ≤ p.address.toNat)
    (ha : s.a = p.address.setWidth 32) (hv : s.v = p.value.setWidth 32)
    (hc : ∀ c, p.compare = some c → s.c = c.setWidth 32) : s.operandPatch p.compare.isSome = .ok p := by
  obtain ⟨address, value, compare⟩ := p
  have hlegal : addressLegal (address.setWidth 32) = true := addressLegal_setWidth hp
  cases compare with
  | none => simp [State.operandPatch, ha, hv, hlegal, byteLegal_setWidth]
  | some c => simp [State.operandPatch, ha, hv, hc c rfl, hlegal, byteLegal_setWidth]

/-- The patch registers after a DEC pass the checks of the encode of the same length, as the patch decoded. -/
theorem State.operandPatch_storePatch (s : State) {p : Patch} (hp : 0x8000 ≤ p.address.toNat) :
    (s.storePatch p).succeed.operandPatch p.compare.isSome = .ok p :=
  State.operandPatch_of_patch hp rfl rfl fun c hc => by simp [hc]

/-- The cells of a code that reads as nibbles have these nibbles (R123). -/
theorem nibOf_cell {k : Vector Byte 8} {n : Nat} {ns : List Nibble} (hr : readNibbles (k.toList.take n) 0 = .ok ns)
    {i : Nat} (hi8 : i < 8) (hi : i < ns.length) : nibOf k[i] = some ns[i] := by
  have hin : i < n := by
    have := readNibbles_length hr
    simp at this
    omega
  have hall := congrArg (·[i]?) (readNibbles_ok hr)
  simpa [hi, hi8, hin] using hall

/-- What a successful DEC found: a code of the length `KL`, whose nibbles are the patch stored (R123). -/
theorem exec_dec_ok {s t : State} (h : exec .dec s = .next t) (herr : t.err = 0) :
    ∃ ns, (s.kl = 6 ∨ s.kl = 8) ∧ ns.length = s.kl.toNat ∧ readNibbles (s.k.toList.take s.kl.toNat) 0 = .ok ns ∧
      t = (s.storePatch (decodeNibbles ns)).succeed := by
  rcases execDec_cases s with ⟨e, -, hd⟩ | ⟨p, hp, hd⟩ <;> cases hd.symm.trans h
  · exact absurd herr (errClass_ne_zero e)
  · rcases decodeCells_cases s.k s.kl with ⟨-, -, hr⟩ | ⟨-, e, -, hr⟩ | ⟨hkl, ns, hns, hr⟩ <;>
      cases hr.symm.trans hp
    refine ⟨ns, hkl, ?_, hns, rfl⟩
    rcases hkl with hk | hk <;> simp [readNibbles_length hns, hk]

/-- The encode of the length `KL`. -/
theorem exec_enc_of_kl {kl : BitVec 4} (hkl : kl = 6 ∨ kl = 8) (t : State) :
    (if kl = 6 then exec .enc6 t else exec .enc8 t) = .next (t.settle (t.encodeOperands (decide (kl = 8)))) := by
  rcases hkl with rfl | rfl <;> rfl

/-- Settles O25: the encode stores the symbols of the decoded nibbles, nibble 2 with the length flag. -/
theorem decodeThenEncodeForcesTheLengthFlag : Obligations.DecodeThenEncodeForcesTheLengthFlag := by
  intro s t h herr
  obtain ⟨ns, hkl, hlen, hread, rfl⟩ := exec_dec_ok h herr
  have hlen68 : ns.length = 6 ∨ ns.length = 8 := by rcases hkl with hk | hk <;> simp [hlen, hk]
  have hns8 : ns.length = 8 ↔ s.kl = 8 := by rcases hkl with hk | hk <;> simp [hlen, hk]
  have hsome : (decodeNibbles ns).compare.isSome = decide (s.kl = 8) := by
    rw [decodeNibbles_compare_isSome, decide_eq_decide, hns8]
  have hpatch := s.operandPatch_storePatch (decodeNibbles_address_legal ns)
  have hnibbles := encodeNibbles_decodeNibbles hlen68
  rw [hsome] at hpatch
  refine ⟨_, (exec_enc_of_kl hkl _).trans (congrArg _ (State.settle_encodeOperands hpatch)), rfl, ?_, ?_, ?_⟩
  · rw [State.storeCode_succeed_eq, hsome]
    rcases hkl with hk | hk <;> simp [hk]
  · intro i hi
    by_cases hin : i.val < ns.length
    · have hi2 : (2 : Nat) ≠ i.val := fun h2 => hi (Fin.ext h2.symm)
      refine (State.storeCode_cell _ i.isLt (n := ns[i.val]) ?_).trans (alphaChar_of_nibOf (nibOf_cell hread i.isLt hin))
      rw [hnibbles, List.getElem?_set_ne hi2, List.getElem?_eq_getElem hin]
    · refine State.storeCode_cell_past _ i.isLt ?_
      rw [codeOfPatch_length, decodeNibbles_compare_isSome]
      rcases hlen68 with hl | hl
      · simpa [hl] using hin
      · have hi8 := i.isLt
        omega
  · have h2 : 2 < ns.length := by omega
    have hrow := hnibbles ▸ List.getElem?_set_self h2
    refine ⟨ns[2], (if ns.length = 8 then 1#1 else 0#1) ++ tri (ns.getD 2 0) 0, nibOf_cell hread (by decide) h2,
      ?_, ?_⟩
    · exact (congrArg nibOf (State.storeCode_cell _ (m := 2) (by decide) hrow)).trans (nibOf_alphaChar _)
    · rw [toNat_append_eq, tri_toNat, List.getD_eq_getElem _ _ h2]
      by_cases h8 : s.kl = 8
      · rw [if_pos (hns8.mpr h8), if_pos h8]; simp; omega
      · rw [if_neg (mt hns8.mp h8), if_neg h8]; simp

end Sys2Proof.Machine

/-! PROOFS. The cartridge reader (spec/41_reader.md): the header parse (R140, R141), the bank reads (R142 to R146), the
region read (R144), their checks (R222 to R224) and the law R148. -/

namespace Sys2Proof.Machine

open Sys2Proof

/-! ### Error entries written out (R222 to R225) -/

theorem State.raise_shortHeader (s : State) :
    s.raise .shortHeader = { s with err := 3, einfo := 0x0001, estk := s.estk ||| 0b01000#5 } := rfl

theorem State.raise_address (s : State) :
    s.raise .address = { s with err := 2, einfo := 0x0001, estk := s.estk ||| 0b00100#5 } := rfl

theorem State.raise_badOffset (s : State) :
    s.raise .badOffset = { s with err := 4, einfo := 0x0005, estk := s.estk ||| 0b10000#5 } := rfl

theorem State.raise_ioFailure (s : State) : (s.raise .ioFailure).nextDraw = s.ioFailed := rfl

theorem State.raise_bankIndex (s : State) (bi : Word) :
    s.raise (.bankIndex bi) =
      { s with err := 3, einfo := BitVec.ofNat 32 (min bi.toNat 255 * 256 + 2), estk := s.estk ||| 0b01000#5 } := by
  have hidx : min bi.toNat 255 % 2 ^ 8 = min bi.toNat 255 := Nat.mod_eq_of_lt (by omega)
  rw [State.raise, errInfo_eq_ofNat, errIdx, BitVec.toNat_ofNat, hidx]
  rfl

/-! ### The header parse (R140, R141) -/

/-- Below its length an image holds a byte (R61). -/
theorem Image.read_of_lt {i : Image} {off : Nat} (h : off < i.len.toNat) :
    i.read off = some (lookupCell i.cells off) :=
  if_pos h

theorem Image.read_of_le {i : Image} {off : Nat} (h : i.len.toNat ≤ off) : i.read off = none :=
  if_neg (by omega)

theorem State.ensureHeader_short {s : State} (hv : s.hv = false) (hlen : s.img.len.toNat < 16) :
    s.ensureHeader = .error .shortHeader := by
  simp [State.ensureHeader, hv, hlen]

/-- A header byte of an image of 16 bytes or more is read, or its read draws a failure. -/
theorem State.headerByte_read {s : State} (hsnap : s.SnapInv) {off : Nat} (hoff : off < s.img.len.toNat) :
    (s.ioFails off = true ∧ s.headerByte off = .error .ioFailure) ∨
    (s.ioFails off = false ∧ ∃ b, s.img.read off = some b ∧ s.headerByte off = .ok b) := by
  rw [← State.imgByte_eq hsnap]
  rcases s.headerByte_cases off with hio | ⟨-, hnone, -⟩ | hok
  · exact .inl hio
  · rw [State.imgByte_eq hsnap, Image.read_of_lt hoff] at hnone
    cases hnone
  · exact .inr hok

/-- What the parse of an image of 16 bytes or more can do: one of its three reads draws a failure, or it takes the
three bytes. -/
theorem State.ensureHeader_long {s : State} (hsnap : s.SnapInv) (hv : s.hv = false) (hlen : 16 ≤ s.img.len.toNat) :
    ((s.ioFails 4 = true ∨ s.ioFails 5 = true ∨ s.ioFails 6 = true) ∧ s.ensureHeader = .error .ioFailure) ∨
    ((s.ioFails 4 = false ∧ s.ioFails 5 = false ∧ s.ioFails 6 = false) ∧ ∃ b4 b5 b6,
      s.img.read 4 = some b4 ∧ s.img.read 5 = some b5 ∧ s.img.read 6 = some b6 ∧
        s.ensureHeader = .ok (s.storeHeader b4 b5 b6)) := by
  have hnot : ¬ s.img.len.toNat < 16 := by omega
  rcases State.headerByte_read hsnap (off := 4) (by omega) with ⟨f4, h4⟩ | ⟨f4, b4, r4, h4⟩
  · exact .inl ⟨.inl f4, by simp [State.ensureHeader, hv, hnot, h4]⟩
  rcases State.headerByte_read hsnap (off := 5) (by omega) with ⟨f5, h5⟩ | ⟨f5, b5, r5, h5⟩
  · exact .inl ⟨.inr (.inl f5), by simp [State.ensureHeader, hv, hnot, h4, h5]⟩
  rcases State.headerByte_read hsnap (off := 6) (by omega) with ⟨f6, h6⟩ | ⟨f6, b6, r6, h6⟩
  · exact .inl ⟨.inr (.inr f6), by simp [State.ensureHeader, hv, hnot, h4, h5, h6]⟩
  · exact .inr ⟨⟨f4, f5, f6⟩, b4, b5, b6, r4, r5, r6, by simp [State.ensureHeader, hv, hnot, h4, h5, h6]⟩

/-- A command that begins with the parse ends with it where it fails. -/
theorem State.withHeader_of_error {s : State} {e : CmdError} (h : s.ensureHeader = .error e)
    (body : State → Except CmdError State) : s.withHeader body = (s.raise e).nextDraw := by
  simp [State.withHeader, h]

/-- Where the parse succeeds the command goes on from the state with the header. -/
theorem State.withHeader_of_ok {s h : State} (hp : s.ensureHeader = .ok h) (body : State → Except CmdError State) :
    s.withHeader body = (h.settle (body h)).nextDraw := by
  simp [State.withHeader, hp]

/-- HDR and the commands that go on after the parse are bodies behind it (R140, R141). -/
theorem exec_eq_withHeader {i : Instr} (hi : i = .hdr ∨ parsesHeaderFirst i = true) :
    ∃ body, ∀ s, exec i s = .next (s.withHeader body) := by
  cases i with
  | hdr | rdp | rdc | rdr | rdpa | rdca | scans => exact ⟨_, fun s => rfl⟩
  | nop | rst | enc6 | enc8 | dec | scann | wr | rd => simp [parsesHeaderFirst] at hi

/-- HDR is the parse alone (R141). -/
theorem exec_hdr_of_ok {s h : State} (hp : s.ensureHeader = .ok h) : exec .hdr s = .next h.succeed.nextDraw :=
  congrArg Host.Outcome.next (State.withHeader_of_ok hp _)

/-- Settles O27: no read of the parse fails, and the registers take the three bytes. -/
theorem hdrParsesTheHeader : Obligations.HdrParsesTheHeader := by
  intro s hsnap hv hlen f4 f5 f6
  rcases State.ensureHeader_long hsnap hv hlen with ⟨hfail, -⟩ | ⟨-, b4, b5, b6, r4, r5, r6, hp⟩
  · simp [f4, f5, f6] at hfail
  · refine ⟨_, b6, exec_hdr_of_ok hp, r6, r4, r5, rfl, ?_, rfl⟩
    cases htrn : b6.getLsbD 2 <;> simp only [State.nextDraw_poff, State.succeed_poff, State.storeHeader_poff,
      State.nextDraw_trn, State.succeed_trn, State.storeHeader_trn, htrn] <;> rfl

/-- Settles O28: with a header parsed the parse does nothing, and HDR is the successful return. -/
theorem hdrWithCachedHeaderReReadsNothing : Obligations.HdrWithCachedHeaderReReadsNothing := by
  intro s hv
  rw [exec_hdr_of_ok (State.ensureHeader_parsed hv)]
  rfl

/-- Settles O29: the parse fails before anything else of the command. -/
theorem shortImageFailsEveryHeaderParse : Obligations.ShortImageFailsEveryHeaderParse := by
  intro s i hv hlen hi
  obtain ⟨body, hexec⟩ := exec_eq_withHeader hi
  rw [hexec, State.withHeader_of_error (State.ensureHeader_short hv hlen), State.raise_shortHeader]
  rfl

/-- The state in which a command goes on is the one HDR ends in, but for what the end of HDR writes. -/
theorem State.ensureHeader_eq_of_hv {s h : State} (hp : s.ensureHeader = .ok h) :
    h.hv = true ∧ h = { h.succeed.nextDraw with err := s.err, einfo := s.einfo, draws := s.draws } := by
  rcases State.ensureHeader_ok hp with ⟨hv, rfl⟩ | ⟨-, -, b4, b5, b6, -, -, -, rfl⟩
  · exact ⟨hv, rfl⟩
  · exact ⟨rfl, rfl⟩

/-- Settles O30: HDR and the command begin with one parse; it fails in both, or leaves both the same state. -/
theorem readerCommandsParseTheHeaderFirst : Obligations.ReaderCommandsParseTheHeaderFirst := by
  intro s t i hv hi ht
  obtain ⟨body, hexec⟩ := exec_eq_withHeader (.inr hi)
  cases hp : s.ensureHeader with
  | error e =>
    obtain rfl : (s.raise e).nextDraw = t :=
      Host.Outcome.next.inj ((congrArg Host.Outcome.next (State.withHeader_of_error hp _)).symm.trans ht)
    refine ⟨fun _ => by rw [hexec, State.withHeader_of_error hp], fun hv' => ?_⟩
    rw [State.nextDraw_hv, State.raise_hv, hv] at hv'
    cases hv'
  | ok h =>
    obtain ⟨hhv, heq⟩ := State.ensureHeader_eq_of_hv hp
    obtain rfl : h.succeed.nextDraw = t := Host.Outcome.next.inj ((exec_hdr_of_ok hp).symm.trans ht)
    refine ⟨fun hv' => ?_, fun _ => ?_⟩
    · rw [State.nextDraw_hv, State.succeed_hv, hhv] at hv'
      cases hv'
    · rw [← heq, hexec, hexec, State.withHeader_of_ok hp, State.withHeader_parsed hhv]

/-! ### A payload read (R25, R61, R226) -/

/-- The state after a command that read the byte at `off` of the image, or found its end there. -/
def State.delivered (s : State) (off : Nat) : State :=
  { s with d := (s.img.read off).getD s.d, eoff := (s.img.read off).isNone, err := 0, einfo := 0,
           snap := some s.img, draws := s.draws + 1 }

/-- A payload read whose draw does not fail ends its command there. -/
theorem State.settle_readPayload {s : State} (hsnap : s.SnapInv) {off : Nat} (hio : s.ioFails off = false) :
    (s.settle (s.readPayload off)).nextDraw = s.delivered off := by
  rcases s.readPayload_cases off with ⟨hf, -⟩ | ⟨-, hr⟩
  · rw [hio] at hf; cases hf
  · rw [hr, State.settle_ok, State.imgByte_eq hsnap, State.fillSnap, State.snap_getD hsnap]
    rfl

/-- A payload read whose draw fails is the error entry (R79). -/
theorem State.settle_readPayload_ioFails {s : State} {off : Nat} (hio : s.ioFails off = true) :
    (s.settle (s.readPayload off)).nextDraw = s.ioFailed := by
  rcases s.readPayload_cases off with ⟨-, hr⟩ | ⟨hf, -⟩
  · rw [hr, State.settle_error, State.raise_ioFailure]
  · rw [hio] at hf; cases hf

/-- What a payload read leaves: a byte in `D`, or the end-of-image flag with `D` unchanged, and nothing else. -/
theorem State.delivered_spec (s : State) (off : Nat) :
    s.delivered off = { s with d := (s.delivered off).d, eoff := (s.delivered off).eoff, err := 0, einfo := 0,
                               snap := some s.img, draws := s.draws + 1 } ∧
      (∀ b, s.img.read off = some b → (s.delivered off).d = b ∧ (s.delivered off).eoff = false) ∧
      (s.img.read off = none → (s.delivered off).d = s.d ∧ (s.delivered off).eoff = true) := by
  refine ⟨rfl, fun b hb => ?_, fun hn => ?_⟩
  · simp [State.delivered, hb]
  · simp [State.delivered, hn]

/-! ### The bank reads (R142, R143, R145, R146) -/

theorem exec_rdp {s : State} (hv : s.hv = true) : exec .rdp s = .next (s.settle (s.readBank .prg)).nextDraw :=
  congrArg Host.Outcome.next (State.withHeader_parsed hv _)

theorem exec_rdc {s : State} (hv : s.hv = true) : exec .rdc s = .next (s.settle (s.readBank .chr)).nextDraw :=
  congrArg Host.Outcome.next (State.withHeader_parsed hv _)

theorem exec_rdr {s : State} (hv : s.hv = true) : exec .rdr s = .next (s.settle s.readRegion).nextDraw :=
  congrArg Host.Outcome.next (State.withHeader_parsed hv _)

theorem exec_rdpa {s : State} (hv : s.hv = true) : exec .rdpa s = .next (s.settle (s.readBankAt .prg)).nextDraw :=
  congrArg Host.Outcome.next (State.withHeader_parsed hv _)

theorem exec_rdca {s : State} (hv : s.hv = true) : exec .rdca s = .next (s.settle (s.readBankAt .chr)).nextDraw :=
  congrArg Host.Outcome.next (State.withHeader_parsed hv _)

/-- The checks of a bank read: the bank index, then the offset (R223, R224, R228). -/
theorem State.readBank_bankIndex {s : State} {r : Region} (h : s.bankCount r ≤ s.bi.toNat) :
    s.readBank r = .error (.bankIndex s.bi) := by
  rcases s.readBank_cases r with ⟨-, h'⟩ | ⟨h', -⟩ | ⟨h', -⟩
  · exact h'
  · omega
  · omega

theorem State.readBank_badOffset {s : State} {r : Region} (h : s.bi.toNat < s.bankCount r)
    (hbo : bankSize r ≤ s.bo.toNat) : s.readBank r = .error .badOffset := by
  rcases s.readBank_cases r with ⟨h', -⟩ | ⟨-, -, h'⟩ | ⟨-, h', -⟩
  · omega
  · exact h'
  · omega

/-- The checks of an addressed read: the address, then the bank index (R222, R223, R228). -/
theorem State.readBankAt_address {s : State} {r : Region} (h : addressLegal s.a = false) :
    s.readBankAt r = .error .address := by
  rcases s.readBankAt_cases r with ⟨-, h'⟩ | ⟨h', -⟩ | ⟨h', -⟩
  · exact h'
  · rw [h] at h'; cases h'
  · rw [h] at h'; cases h'

theorem State.readBankAt_bankIndex {s : State} {r : Region} (ha : addressLegal s.a = true)
    (h : s.bankCount r ≤ s.bi.toNat) : s.readBankAt r = .error (.bankIndex s.bi) := by
  rcases s.readBankAt_cases r with ⟨h', -⟩ | ⟨-, -, h'⟩ | ⟨-, h', -⟩
  · rw [ha] at h'; cases h'
  · exact h'
  · omega

/-- A bank read with operands in range is a payload read. -/
theorem State.readBank_eq {s : State} {r : Region} (hbi : s.bi.toNat < s.bankCount r)
    (hbo : s.bo.toNat < bankSize r) :
    s.readBank r = s.readPayload (s.bankOffset r s.bi.toNat s.bo.toNat) := by
  rcases s.readBank_cases r with ⟨h, -⟩ | ⟨-, h, -⟩ | ⟨-, -, h⟩
  · omega
  · omega
  · exact h

/-- So is an addressed read. -/
theorem State.readBankAt_eq {s : State} {r : Region} (ha : addressLegal s.a = true)
    (hbi : s.bi.toNat < s.bankCount r) :
    s.readBankAt r =
      s.readPayload (s.bankOffset r s.bi.toNat (bankOff s.params.bankOff r (s.a.setWidth 16))) := by
  rcases s.readBankAt_cases r with ⟨h, -⟩ | ⟨-, h, -⟩ | ⟨-, -, h⟩
  · rw [ha] at h; cases h
  · omega
  · exact h

/-- RDP in range delivers the byte of its bank. -/
theorem exec_rdp_delivered {s : State} (hsnap : s.SnapInv) (hv : s.hv = true) (hbi : s.bi.toNat < s.prgn.toNat)
    (hbo : s.bo.toNat < 16384) (hio : s.ioFails (s.bankOffset .prg s.bi.toNat s.bo.toNat) = false) :
    exec .rdp s = .next (s.delivered (s.bankOffset .prg s.bi.toNat s.bo.toNat)) := by
  rw [exec_rdp hv, State.readBank_eq (r := .prg) hbi hbo, State.settle_readPayload hsnap hio]

/-- Settles O31: in range RDP is a payload read at `PrgOff(BI, BO)`. -/
theorem rdpReadsThePrgBank : Obligations.RdpReadsThePrgBank :=
  fun s hsnap hv hbi hbo hio => ⟨_, exec_rdp_delivered hsnap hv hbi hbo hio, s.delivered_spec _⟩

/-- Settles O32: in range RDC is a payload read at `ChrOff(BI, BO)`. -/
theorem rdcReadsTheChrBank : Obligations.RdcReadsTheChrBank := by
  intro s hsnap hv hbi hbo hio
  refine ⟨_, ?_, s.delivered_spec _⟩
  rw [exec_rdc hv, State.readBank_eq (r := .chr) hbi hbo]
  exact congrArg _ (State.settle_readPayload hsnap hio)

/-- Settles O35: in range RDPA is a payload read at `PrgOff(BI, BANKOFF)`. -/
theorem rdpaReadsTheByteAtTheAddress : Obligations.RdpaReadsTheByteAtTheAddress := by
  intro s hsnap hv hlo hhi hbi hio
  refine ⟨_, ?_, s.delivered_spec _⟩
  rw [exec_rdpa hv, State.readBankAt_eq (r := .prg) ((addressLegal_iff s.a).mpr ⟨hlo, hhi⟩) hbi]
  exact congrArg _ (State.settle_readPayload hsnap hio)

/-- Settles O36: in range RDCA is a payload read at `ChrOff(BI, BANKOFF)`. -/
theorem rdcaReadsTheByteAtTheAddress : Obligations.RdcaReadsTheByteAtTheAddress := by
  intro s hsnap hv hlo hhi hbi hio
  refine ⟨_, ?_, s.delivered_spec _⟩
  rw [exec_rdca hv, State.readBankAt_eq (r := .chr) ((addressLegal_iff s.a).mpr ⟨hlo, hhi⟩) hbi]
  exact congrArg _ (State.settle_readPayload hsnap hio)

/-! ### The region read (R64, R144) -/

theorem State.readRegion_eq {s : State} (h : s.bo.toNat < s.prgLen) :
    s.readRegion = s.readPayload (s.poff.toNat + s.bo.toNat) := by
  rcases s.readRegion_cases with ⟨h', -⟩ | ⟨-, h'⟩
  · omega
  · exact h'

theorem State.readRegion_end {s : State} (h : s.prgLen ≤ s.bo.toNat) : s.readRegion = .ok (s.deliver none) := by
  rcases s.readRegion_cases with ⟨-, h'⟩ | ⟨h', -⟩
  · exact h'
  · omega

/-- An index below `RL` lies inside the image (R64). -/
theorem State.lt_len_of_lt_prgLen {s : State} {n : Nat} (h : n < s.prgLen) : s.poff.toNat + n < s.img.len.toNat := by
  unfold State.prgLen at h
  omega

/-- RDR below `RL` delivers the byte at its index. -/
theorem exec_rdr_delivered {s : State} (hsnap : s.SnapInv) (hv : s.hv = true) (hbo : s.bo.toNat < s.prgLen)
    (hio : s.ioFails (s.poff.toNat + s.bo.toNat) = false) :
    exec .rdr s = .next (s.delivered (s.poff.toNat + s.bo.toNat)) := by
  rw [exec_rdr hv, State.readRegion_eq hbo, State.settle_readPayload hsnap hio]

/-- RDR at or past `RL` reads nothing (R144). -/
theorem exec_rdr_end {s : State} (hv : s.hv = true) (hbo : s.prgLen ≤ s.bo.toNat) :
    exec .rdr s = .next { s with eoff := true, err := 0, einfo := 0, draws := s.draws + 1 } := by
  rw [exec_rdr hv, State.readRegion_end hbo]
  rfl

/-- Settles O33: below `RL` RDR is a payload read inside the image, and past it nothing is read. -/
theorem rdrReadsThePrgRegion : Obligations.RdrReadsThePrgRegion := by
  refine fun s hsnap hv => ⟨fun hbo hio => ?inside, fun hbo => exec_rdr_end hv hbo⟩
  case inside =>
    have hread := Image.read_of_lt (State.lt_len_of_lt_prgLen hbo)
    refine ⟨_, hread, ?_⟩
    rw [exec_rdr_delivered hsnap hv hbo hio, State.delivered, hread]
    rfl

/-! ### RDPA and RDCA as RDP and RDC (R68, R148) -/

/-- A legal address fits 16 bits. -/
theorem address_setWidth_toNat {a : Word} (h : a.toNat ≤ 0xFFFF) : (a.setWidth 16).toNat = a.toNat := by
  rw [BitVec.toNat_setWidth, Nat.mod_eq_of_lt (by omega)]

/-- A payload read does not look at `BO` and leaves it. -/
theorem State.settle_readPayload_bo (s : State) (x : Word) (off : Nat) {u : State} (hu : u = { s with bo := x }) :
    (s.settle (s.readPayload off)).nextDraw = { (u.settle (u.readPayload off)).nextDraw with bo := s.bo } := by
  have hio : u.ioFails off = s.ioFails off := by rw [hu]; rfl
  unfold State.readPayload State.memRead
  rw [hio, hu]
  cases s.ioFails off <;> rfl

/-- An addressed read is the bank read with `BO` at the offset of the address, which it leaves as it was. -/
theorem State.readBankAt_eq_readBank {s : State} {r : Region} (ha : addressLegal s.a = true) {u : State}
    (hu : u = { s with bo := BitVec.ofNat 32 (bankOff s.params.bankOff r (s.a.setWidth 16)) }) :
    (s.settle (s.readBankAt r)).nextDraw = { (u.settle (u.readBank r)).nextDraw with bo := s.bo } := by
  have hoff := bankOff_lt s.params.bankOff r (s.a.setWidth 16)
  have hsize : bankSize r ≤ 16384 := by cases r <;> decide
  have hbo : u.bo.toNat = bankOff s.params.bankOff r (s.a.setWidth 16) := by
    rw [hu, BitVec.toNat_ofNat, Nat.mod_eq_of_lt (by omega)]
  have hcount : u.bankCount r = s.bankCount r := by rw [hu]; cases r <;> rfl
  have hbi : u.bi = s.bi := by rw [hu]
  by_cases h : s.bi.toNat < s.bankCount r
  · have hoffset : u.bankOffset r u.bi.toNat u.bo.toNat =
        s.bankOffset r s.bi.toNat (bankOff s.params.bankOff r (s.a.setWidth 16)) := by
      rw [hbo, hu]; cases r <;> rfl
    have hin : u.bi.toNat < u.bankCount r := by rw [hbi, hcount]; exact h
    rw [State.readBankAt_eq ha h, State.readBank_eq hin (by omega), hoffset]
    exact s.settle_readPayload_bo _ _ hu
  · have hout : u.bankCount r ≤ u.bi.toNat := by rw [hbi, hcount]; exact Nat.le_of_not_lt h
    rw [State.readBank_bankIndex hout, State.readBankAt_bankIndex ha (Nat.le_of_not_lt h), hu]
    rfl

/-- Settles O34: the offset is `BANKOFF`'s, inside the bank, and the two reads differ in `BO` alone. -/
theorem addressedReadsUseTheBankOffset : Obligations.AddressedReadsUseTheBankOffset := by
  intro s hv hlo hhi
  have ha := (addressLegal_iff s.a).mpr ⟨hlo, hhi⟩
  refine ⟨bankOff_lt _ .prg _, bankOff_lt _ .chr _, fun hdef => ?_, ⟨_, exec_rdp hv, ?_⟩, ⟨_, exec_rdc hv, ?_⟩⟩
  · rw [hdef]
    exact ⟨congrArg (· % 16384) (address_setWidth_toNat hhi), congrArg (· % 8192) (address_setWidth_toNat hhi)⟩
  · rw [exec_rdpa hv, State.readBankAt_eq_readBank ha rfl]
  · rw [exec_rdca hv, State.readBankAt_eq_readBank ha rfl]

/-! ### The checks of the reads (R222 to R224, R228) -/

/-- Settles O37: the bank index is checked first, the offset second, and a failed check is the error entry. -/
theorem bankReadsCheckBankThenOffset : Obligations.BankReadsCheckBankThenOffset := by
  refine fun s hv => ⟨fun h => ?_, fun h hbo => ?_, fun h => ?_, fun h hbo => ?_⟩
  · rw [exec_rdp hv, State.readBank_bankIndex (r := .prg) h, State.settle_error, State.raise_bankIndex]
    rfl
  · rw [exec_rdp hv, State.readBank_badOffset (r := .prg) h hbo, State.settle_error, State.raise_badOffset]
    rfl
  · rw [exec_rdc hv, State.readBank_bankIndex (r := .chr) h, State.settle_error, State.raise_bankIndex]
    rfl
  · rw [exec_rdc hv, State.readBank_badOffset (r := .chr) h hbo, State.settle_error, State.raise_badOffset]
    rfl

/-- Settles O38: the address is checked first, the bank index second. -/
theorem addressedReadsCheckAddressThenBank : Obligations.AddressedReadsCheckAddressThenBank := by
  refine fun s hv => ⟨fun ha => ?_, fun hlo hhi h => ?_, fun hlo hhi h => ?_⟩
  · have hbad (r : Region) : s.readBankAt r = .error .address :=
      State.readBankAt_address ((addressLegal_eq_false_iff s.a).mpr ha)
    rw [exec_rdpa hv, exec_rdca hv, hbad, hbad, State.settle_error, State.raise_address]
    exact ⟨rfl, rfl⟩
  · have hbad := State.readBankAt_bankIndex (r := .prg) ((addressLegal_iff s.a).mpr ⟨hlo, hhi⟩) h
    rw [exec_rdpa hv, hbad, State.settle_error, State.raise_bankIndex]
    rfl
  · have hbad := State.readBankAt_bankIndex (r := .chr) ((addressLegal_iff s.a).mpr ⟨hlo, hhi⟩) h
    rw [exec_rdca hv, hbad, State.settle_error, State.raise_bankIndex]
    rfl

/-! ### Bank and region reads agree (R148) -/

/-- Settles O39: both address the byte `16384 i + off` of the region, and where RDR finds the region's end RDP finds
the image's. -/
theorem bankAndRegionReadsAgree : Obligations.BankAndRegionReadsAgree := by
  intro s t u i off hsnap hv hparams hi hoff ht hu
  have hprgn := s.prgn.isLt
  have hio := State.noIoFailure_of_default hparams
  have hbi : (BitVec.ofNat 32 i).toNat = i := by rw [BitVec.toNat_ofNat, Nat.mod_eq_of_lt (by omega)]
  have hbo : (BitVec.ofNat 32 off).toNat = off := by rw [BitVec.toNat_ofNat, Nat.mod_eq_of_lt (by omega)]
  have hidx : (BitVec.ofNat 32 (16384 * i + off)).toNat = 16384 * i + off := by
    rw [BitVec.toNat_ofNat, Nat.mod_eq_of_lt (by omega)]
  have hbank := exec_rdp_delivered (s := { s with bi := BitVec.ofNat 32 i, bo := BitVec.ofNat 32 off })
    hsnap hv (hbi.symm ▸ hi) (hbo.symm ▸ hoff) (hio _)
  obtain rfl := Host.Outcome.next.inj (hbank.symm.trans ht)
  have hsame : State.bankOffset { s with bi := BitVec.ofNat 32 i, bo := BitVec.ofNat 32 off } .prg
      (BitVec.ofNat 32 i).toNat (BitVec.ofNat 32 off).toNat = s.poff.toNat + (16384 * i + off) := by
    rw [hbi, hbo]
    exact Nat.add_assoc _ _ _
  by_cases h : 16384 * i + off < s.prgLen
  · have hregion := exec_rdr_delivered (s := { s with bo := BitVec.ofNat 32 (16384 * i + off) })
      hsnap hv (hidx.symm ▸ h) (hio _)
    obtain rfl := Host.Outcome.next.inj (hregion.symm.trans hu)
    rw [hsame, hidx]
    exact ⟨rfl, rfl, rfl, rfl⟩
  · have hregion := exec_rdr_end (s := { s with bo := BitVec.ofNat 32 (16384 * i + off) }) hv
      (hidx.symm ▸ Nat.le_of_not_lt h)
    obtain rfl := Host.Outcome.next.inj (hregion.symm.trans hu)
    have hend : s.img.len.toNat ≤ s.poff.toNat + (16384 * i + off) := by
      unfold State.prgLen at h
      omega
    rw [hsame]
    simp [State.delivered, Image.read_of_le hend]

end Sys2Proof.Machine

/-! PROOFS. The pattern scanner (spec/42_scanner.md): SCANS (R162), SCANN (R163), and the sequence the two produce
(R164, R165). -/

namespace Sys2Proof.Machine

open Sys2Proof

/-! ### SCANS (R162) -/

theorem exec_scans {s : State} (hv : s.hv = true) : exec .scans s = .next (s.settle s.startScan).nextDraw :=
  congrArg Host.Outcome.next (State.withHeader_parsed hv _)

theorem Slot.lengthLegal_eq_false_iff (p : Slot) :
    p.lengthLegal = false ↔ p.plen.toNat = 0 ∨ 8 < p.plen.toNat := by
  rw [← Bool.not_eq_true, Slot.lengthLegal_iff]
  omega

/-- The error entries of SCANS written out (R224). -/
theorem State.raise_badNp (s : State) (np : BitVec 4) :
    s.raise (.badNp np) =
      { s with err := 4, einfo := BitVec.ofNat 32 (np.toNat * 256 + 6), estk := s.estk ||| 0b10000#5 } := by
  have hnp : (np.setWidth 8).toNat = np.toNat := BitVec.toNat_setWidth_of_le (by decide)
  rw [State.raise, errInfo_eq_ofNat, errIdx, hnp]
  rfl

theorem State.raise_badPattern (s : State) {j : Nat} (hj : j < 256) :
    s.raise (.badPattern j) =
      { s with err := 4, einfo := BitVec.ofNat 32 (j * 256 + 3), estk := s.estk ||| 0b10000#5 } := by
  rw [State.raise, errInfo_eq_ofNat, errIdx, BitVec.toNat_ofNat, Nat.mod_eq_of_lt hj]
  rfl

/-- Settles O42: no active slot is illegal, so the check finds none. -/
theorem scansStartsTheScan : Obligations.ScansStartsTheScan := by
  intro s hv hnp hlegal
  rcases s.startScan_cases with ⟨h, -⟩ | ⟨-, j, hbad, -⟩ | ⟨-, -, hstart⟩
  · omega
  · obtain ⟨-, hj, hillegal, -⟩ := State.badSlot_some hbad
    rw [(Slot.lengthLegal_iff _).mpr (hlegal j (by omega))] at hillegal
    cases hillegal
  · rw [exec_scans hv, hstart]
    rfl

/-- Settles O43: `NP` is checked first, and of the illegal slots the check finds the lowest. -/
theorem scansRefusesAnIllegalList : Obligations.ScansRefusesAnIllegalList := by
  refine fun s hv => ⟨fun hnp => ?np, fun j hnp hj hillegal hlow => ?slot⟩
  case np =>
    have hstart : s.startScan = .error (.badNp s.np) := if_pos hnp
    rw [exec_scans hv, hstart, State.settle_error, State.raise_badNp]
    rfl
  case slot =>
    have hbadj := (Slot.lengthLegal_eq_false_iff _).mpr hillegal
    have hstart : s.startScan = .error (.badPattern j) := by
      rcases s.startScan_cases with ⟨h, -⟩ | ⟨-, m, hbad, hstart⟩ | ⟨-, hnone, -⟩
      · omega
      · obtain ⟨-, -, hbadm, hlowm⟩ := State.badSlot_some hbad
        rcases Nat.lt_trichotomy m j with h | h | h
        · rw [(Slot.lengthLegal_iff _).mpr (hlow m h)] at hbadm
          cases hbadm
        · exact h ▸ hstart
        · rw [hlowm j (Nat.zero_le j) h] at hbadj
          cases hbadj
      · rw [State.badSlot_none hnone j (Nat.zero_le j) (by omega)] at hbadj
        cases hbadj
    rw [exec_scans hv, hstart, State.settle_error, State.raise_badPattern s (by omega)]
    rfl

/-! ### SCANN without an active scan (R163) -/

theorem exec_scann (s : State) : exec .scann s = .next (s.settle s.scanNext).nextDraw := rfl

/-- Settles O46: an exhausted scan only clears `FND`, and without a scan SCANN is an error entry. -/
theorem scannWithoutActiveScan : Obligations.ScannWithoutActiveScan := by
  refine fun s => ⟨fun hs => ?done, fun hs => ?idle⟩
  case done =>
    rcases s.scanNext_cases with ⟨h, -⟩ | ⟨-, hnext⟩ | ⟨h, -⟩
    · rw [hs] at h; cases h
    · rw [exec_scann, hnext]
      rfl
    · rw [hs] at h; cases h
  case idle =>
    rw [exec_scann_idle hs, State.raise_noScan]
    rfl

/-! ### The search, in the words of R160

`occurs` says that a pattern stands at a location, and does not speak of reads. A search that answers has found the
least occurrence, or there is none. -/

/-- Byte `k` of a slot's pattern. -/
theorem Slot.bytes_getElem {p : Slot} {k : Nat} (hk : k < p.bytes.length) :
    p.bytes[k] = p.pb.toList.getD k 0 := by
  have hk8 : k < 8 := by
    simp [Slot.bytes] at hk
    omega
  simp [Slot.bytes, hk8]

/-- What an occurrence is (R160). -/
theorem State.occurs_iff (s : State) (j h : Nat) :
    s.occurs j h = true ↔ h + (s.slotAt j).plen.toNat ≤ s.prgLen ∧
      ∀ k, k < (s.slotAt j).plen.toNat → s.img.read (s.poff.toNat + h + k) = some ((s.slotAt j).pb.toList.getD k 0) := by
  simp [State.occurs]

/-- An occurrence lies inside the region. -/
theorem State.occurs_eq_false_of_past (s : State) {j h : Nat} (hpast : s.prgLen < h + (s.slotAt j).plen.toNat) :
    s.occurs j h = false := by
  rw [← Bool.not_eq_true, s.occurs_iff]
  omega

/-- A comparison inside the region that answers says whether the pattern occurs there. -/
theorem State.bytesAt_eq_occurs {s : State} (hsnap : s.SnapInv) {j h : Nat} (hlen : (s.slotAt j).plen.toNat ≤ 8)
    (hin : h + (s.slotAt j).plen.toNat ≤ s.prgLen) {r : Bool}
    (hb : s.bytesAt (s.slotAt j).bytes (s.poff.toNat + h) = .ok r) : r = s.occurs j h := by
  have hL := Slot.bytes_length hlen
  rw [Bool.eq_iff_iff, State.bytesAt_ok hb, s.occurs_iff]
  refine ⟨fun hall => ⟨hin, fun k hk => ?_⟩, fun ⟨_, hall⟩ k hk => ?_⟩
  · rw [← State.imgByte_eq hsnap, hall k (by omega), Slot.bytes_getElem]
  · rw [State.imgByte_eq hsnap, hall k (by omega), Slot.bytes_getElem]

/-- A search that answers has found the least occurrence from its start on, or there is none (R160). -/
theorem State.nextHit_ok {s : State} (hsnap : s.SnapInv) {j start : Nat} (hlen : (s.slotAt j).plen.toNat ≤ 8)
    {r : Option Nat} (hr : s.nextHit j start = .ok r) :
    match r with
    | some h => start ≤ h ∧ s.occurs j h = true ∧ ∀ x, start ≤ x → x < h → s.occurs j x = false
    | none => ∀ x, start ≤ x → s.occurs j x = false := by
  have hL := Slot.bytes_length hlen
  cases r with
  | some h =>
    have hin := (State.nextHit_some hr).2
    obtain ⟨hstart, -, hhit, hbefore⟩ := State.firstHit_ok hr
    refine ⟨hstart, (State.bytesAt_eq_occurs hsnap hlen (by omega) hhit).symm, fun x hx hxh => ?_⟩
    exact (State.bytesAt_eq_occurs hsnap hlen (by omega) (hbefore x hx hxh)).symm
  | none =>
    have hnone := State.firstHit_ok hr
    intro x hx
    by_cases hin : x + (s.slotAt j).plen.toNat ≤ s.prgLen
    · exact (State.bytesAt_eq_occurs hsnap hlen hin (hnone x hx (by omega))).symm
    · exact s.occurs_eq_false_of_past (by omega)

/-! ### The outcome of SCANN in an active scan (R163) -/

/-- No pattern from `SJ` up to `j` occurs from its search position on. -/
def State.NoHitBefore (s : State) (j : Nat) : Prop :=
  ∀ i x, s.sj.toNat ≤ i → i < j → s.searchStart i ≤ x → s.occurs i x = false

/-- Pattern `j` is the first from `SJ` on with an occurrence from its search position on, and `h` the least. -/
def State.FirstHitAt (s : State) (j h : Nat) : Prop :=
  s.sj.toNat ≤ j ∧ j < s.np.toNat ∧ s.searchStart j ≤ h ∧ s.occurs j h = true ∧
    (∀ x, s.searchStart j ≤ x → x < h → s.occurs j x = false) ∧ s.NoHitBefore j

/-- There is at most one first hit. -/
theorem State.FirstHitAt.unique {s : State} {j h i l : Nat} (hj : s.FirstHitAt j h) (hi : s.FirstHitAt i l) :
    i = j ∧ l = h := by
  obtain ⟨hsj, -, hjh, hoj, hlowj, hbeforej⟩ := hj
  obtain ⟨hsi, -, hil, hoi, hlowi, hbeforei⟩ := hi
  have hij : i = j := by
    rcases Nat.lt_trichotomy i j with h' | h' | h'
    · exact absurd hoi (by simp [hbeforej i l hsi h' hil])
    · exact h'
    · exact absurd hoj (by simp [hbeforei j h hsj h' hjh])
  subst hij
  refine ⟨rfl, ?_⟩
  rcases Nat.lt_trichotomy l h with h' | h' | h'
  · exact absurd hoi (by simp [hlowj l hil h'])
  · exact h'
  · exact absurd hoj (by simp [hlowi h hjh h'])

/-- A first hit is a hit. -/
theorem State.FirstHitAt.not_noHit {s : State} {j h : Nat} (hj : s.FirstHitAt j h) : ¬ s.NoHitBefore s.np.toNat := by
  obtain ⟨hsj, hnp, hjh, hoj, -, -⟩ := hj
  exact fun hno => absurd hoj (by simp [hno j h hsj hnp hjh])

/-- SCANN in an active scan that meets the scan invariant: a read draws a failure, or the first hit is reported, or
there is none and the sequence is exhausted. -/
theorem State.scanNext_spec {s : State} (hsnap : s.SnapInv) (hinv : s.ScanInv) (hs : s.ss = .active) :
    (s.scanNext = .error .ioFailure ∧ ∃ x, s.ioFails x = true) ∨
    (∃ j h, s.FirstHitAt j h ∧ s.scanNext = .ok (s.fillSnap.reportHit j h)) ∨
    (s.NoHitBefore s.np.toNat ∧ s.scanNext = .ok (s.fillSnap.reportExhausted s.np.toNat)) := by
  obtain ⟨hlegal, hpos, -⟩ := hinv
  obtain ⟨-, hnp, hlen⟩ := hlegal (by simp [hs])
  obtain ⟨hsj, -⟩ := hpos hs
  have hlen8 (i : Nat) (hi : i < s.np.toNat) := ((Slot.lengthLegal_iff _).mp (hlen i hi)).2
  have hactive : s.activeSlots = s.np.toNat := Nat.min_eq_left hnp
  rcases s.scanNext_cases with ⟨h, -⟩ | ⟨h, -⟩ | ⟨-, hio | ⟨j, h, hseek, hnext⟩ | ⟨j, hseek, hnext⟩⟩
  · rw [hs] at h; cases h
  · rw [hs] at h; cases h
  · exact .inl hio
  · obtain ⟨hj, hjnp, hhit, hbefore⟩ := State.seekHit_ok hseek
    obtain ⟨hstart, hocc, hlow⟩ := State.nextHit_ok hsnap (hlen8 j (by omega)) hhit
    refine .inr (.inl ⟨j, h, ⟨hj, by omega, hstart, hocc, hlow, fun i x hi hij hx => ?_⟩, hnext⟩)
    exact State.nextHit_ok hsnap (hlen8 i (by omega)) (hbefore i hi hij) x hx
  · obtain ⟨hj, hbefore⟩ := State.seekHit_ok hseek
    have hjnp : j = s.np.toNat := by omega
    refine .inr (.inr ⟨fun i x hi hij hx => ?_, hjnp ▸ hnext⟩)
    exact State.nextHit_ok hsnap (hlen8 i hij) (hbefore i hi (by omega)) x hx

/-- The state after SCANN reported a hit, as the values it writes. -/
def State.withHit (s : State) (a hl : Word) (pi : BitVec 3) (sj : BitVec 4) (sp : Word) : State :=
  { s with a := a, hl := hl, pi := pi, fnd := true, sj := sj, sp := sp, err := 0, einfo := 0, snap := some s.img,
           draws := s.draws + 1 }

/-- The state after SCANN reported the hit of pattern `j` at `h`. -/
def State.afterHit (s : State) (j h : Nat) : State :=
  s.withHit (cand h (s.slotAt j).po) (BitVec.ofNat 32 h) (BitVec.ofNat 3 j) (BitVec.ofNat 4 j)
    (BitVec.ofNat 32 (h + stepBy s.params.scanStep (s.slotAt j).plen.toNat))

/-- The state after SCANN found the sequence exhausted. -/
def State.afterExhaustion (s : State) : State :=
  { s with ss := .done, sj := s.np, sp := 0, fnd := false, err := 0, einfo := 0, snap := some s.img,
           draws := s.draws + 1 }

theorem State.settle_reportHit {s : State} (hsnap : s.SnapInv) (j h : Nat) :
    (s.settle (.ok (s.fillSnap.reportHit j h))).nextDraw = s.afterHit j h := by
  rw [State.settle_ok, State.reportHit, State.fillSnap_slotAt, State.fillSnap_params, State.fillSnap,
    State.snap_getD hsnap, State.afterHit]
  generalize cand h (s.slotAt j).po = a
  rfl

theorem State.settle_reportExhausted {s : State} (hsnap : s.SnapInv) :
    (s.settle (.ok (s.fillSnap.reportExhausted s.np.toNat))).nextDraw = s.afterExhaustion := by
  rw [State.settle_ok, State.reportExhausted, State.fillSnap, State.snap_getD hsnap, BitVec.ofNat_toNat,
    BitVec.setWidth_eq]
  rfl

/-- The same as an outcome of the instruction, where no read fails. -/
theorem exec_scann_active {s : State} (hsnap : s.SnapInv) (hio : s.NoIoFailure) (hinv : s.ScanInv)
    (hs : s.ss = .active) :
    (∃ j h, s.FirstHitAt j h ∧ exec .scann s = .next (s.afterHit j h)) ∨
    (s.NoHitBefore s.np.toNat ∧ exec .scann s = .next s.afterExhaustion) := by
  rw [exec_scann]
  rcases State.scanNext_spec hsnap hinv hs with ⟨-, x, hx⟩ | ⟨j, h, hfirst, hnext⟩ | ⟨hno, hnext⟩
  · rw [hio x] at hx; cases hx
  · exact .inl ⟨j, h, hfirst, by rw [hnext, State.settle_reportHit hsnap]⟩
  · exact .inr ⟨hno, by rw [hnext, State.settle_reportExhausted hsnap]⟩

/-- The registers that take a first hit are wide enough: it lies inside the region, and its slot is active. -/
theorem State.afterHit_toNat {s : State} (hinv : s.ScanInv) (hs : s.ss = .active) {j h : Nat}
    (hfirst : s.FirstHitAt j h) :
    (s.afterHit j h).hl.toNat = h ∧ (s.afterHit j h).pi.toNat = j ∧ (s.afterHit j h).sj.toNat = j ∧
      (s.afterHit j h).sp.toNat = h + stepBy s.params.scanStep (s.slotAt j).plen.toNat := by
  obtain ⟨hlegal, -, -⟩ := hinv
  obtain ⟨-, hnp, hlen⟩ := hlegal (by simp [hs])
  obtain ⟨-, hj, -, hocc, -, -⟩ := hfirst
  have hstep := stepBy_range s.params.scanStep ((Slot.lengthLegal_iff _).mp (hlen j hj)).1
  have hregion := s.prgLen_le
  have hin := ((s.occurs_iff j h).mp hocc).1
  simp only [State.afterHit, State.withHit, BitVec.toNat_ofNat]
  omega

/-- Settles O44: SCANN reports the first hit, and there is only one. -/
theorem scannReportsTheFirstHit : Obligations.ScannReportsTheFirstHit := by
  intro s j h hsnap hio hinv hs hsj hj hstart hocc hlow hbefore
  have hfirst : s.FirstHitAt j h := ⟨hsj, hj, hstart, hocc, hlow, hbefore⟩
  rcases exec_scann_active hsnap hio hinv hs with ⟨i, l, hil, hexec⟩ | ⟨hno, -⟩
  · obtain ⟨rfl, rfl⟩ := hfirst.unique hil
    obtain ⟨hhl, hpi, hsj', hsp⟩ := State.afterHit_toNat hinv hs hil
    refine ⟨_, hexec, rfl, hhl, hpi, hsj', hsp.trans ?_⟩
    cases s.params.scanStep <;> rfl
  · exact absurd hno hfirst.not_noHit

/-- Settles O45: without a further occurrence there is no first hit to report. -/
theorem scannReportsExhaustion : Obligations.ScannReportsExhaustion := by
  intro s hsnap hio hinv hs hno
  rcases exec_scann_active hsnap hio hinv hs with ⟨j, h, hfirst, -⟩ | ⟨-, hexec⟩
  · exact absurd hno hfirst.not_noHit
  · exact hexec

/-! ### The sequence of a scan (R164, R165)

`hitsFrom` looks at a bounded number of positions. From any position the region's length is bound enough, so the hits
from a position on, `hits`, satisfy equations without a bound; what a scan has still to yield, `remaining`, is made of
them, and each SCANN takes its head. -/

/-- The hits of pattern `j` from `pos` on. -/
def State.hits (s : State) (j pos : Nat) : List Nat := s.hitsFrom j (s.prgLen + 1 - pos) pos

theorem State.hitsFrom_of_noHit {s : State} {j pos : Nat} (h : ∀ x, pos ≤ x → s.occurs j x = false) (n : Nat) :
    s.hitsFrom j n pos = [] := by
  induction n generalizing pos with
  | zero => rfl
  | succ n ih =>
    rw [State.hitsFrom, h pos (Nat.le_refl pos)]
    exact ih fun x hx => h x (by omega)

/-- Bounds that reach the end of the region give the same hits. -/
theorem State.hitsFrom_eq_hits {s : State} {j n pos : Nat} (hlen : 1 ≤ (s.slotAt j).plen.toNat)
    (hn : s.prgLen + 1 - pos ≤ n) : s.hitsFrom j n pos = s.hits j pos := by
  have hstep := (stepBy_range s.params.scanStep hlen).1
  suffices hboth : ∀ n m pos, s.prgLen + 1 - pos ≤ n → s.prgLen + 1 - pos ≤ m →
      s.hitsFrom j n pos = s.hitsFrom j m pos from hboth n _ pos hn (Nat.le_refl _)
  intro n
  induction n with
  | zero =>
    intro m pos hn _
    exact (State.hitsFrom_of_noHit (fun x hx => s.occurs_eq_false_of_past (by omega)) m).symm
  | succ n ih =>
    intro m pos hn hm
    cases m with
    | zero => exact State.hitsFrom_of_noHit (fun x hx => s.occurs_eq_false_of_past (by omega)) _
    | succ m =>
      rw [State.hitsFrom, State.hitsFrom, ih m (pos + 1) (by omega) (by omega),
        ih m (pos + stepBy s.params.scanStep (s.slotAt j).plen.toNat) (by omega) (by omega)]

theorem State.hits_of_noHit {s : State} {j pos : Nat} (h : ∀ x, pos ≤ x → s.occurs j x = false) :
    s.hits j pos = [] :=
  State.hitsFrom_of_noHit h _

/-- The hits from a position on are the least one and those after it. -/
theorem State.hits_of_least {s : State} {j pos h : Nat} (hlen : 1 ≤ (s.slotAt j).plen.toNat) (hpos : pos ≤ h)
    (hocc : s.occurs j h = true) (hlow : ∀ x, pos ≤ x → x < h → s.occurs j x = false) :
    s.hits j pos = h :: s.hits j (h + stepBy s.params.scanStep (s.slotAt j).plen.toNat) := by
  have hstep := (stepBy_range s.params.scanStep hlen).1
  have hin := ((s.occurs_iff j h).mp hocc).1
  obtain ⟨d, hd⟩ := Nat.le.dest hpos
  induction d generalizing pos with
  | zero =>
    obtain rfl : pos = h := hd
    rw [State.hits, show s.prgLen + 1 - pos = s.prgLen - pos + 1 by omega, State.hitsFrom, hocc, if_pos rfl,
      State.hitsFrom_eq_hits hlen (by omega)]
  | succ d ih =>
    have hnot : s.occurs j pos = false := hlow pos (Nat.le_refl pos) (by omega)
    rw [← ih (pos := pos + 1) (by omega) (fun x hx hxh => hlow x (by omega) hxh) (by omega)]
    rw [State.hits, show s.prgLen + 1 - pos = s.prgLen + 1 - (pos + 1) + 1 by omega, State.hitsFrom, hnot]
    rfl

/-- The elements of the sequence that pattern `j` yields from `pos` on. -/
def State.elements (s : State) (j pos : Nat) : List (Nat × Nat × Word) :=
  (s.hits j pos).map fun h => (j, h, cand h (s.slotAt j).po)

/-- What an active scan has still to yield (R165 c). -/
def State.remaining (s : State) : List (Nat × Nat × Word) :=
  (List.range' s.sj.toNat (s.np.toNat - s.sj.toNat)).flatMap fun j => s.elements j (s.searchStart j)

theorem State.elements_of_noHit {s : State} {j pos : Nat} (h : ∀ x, pos ≤ x → s.occurs j x = false) :
    s.elements j pos = [] := by
  rw [State.elements, State.hits_of_noHit h, List.map_nil]

/-- A hit and the state after it agree on what the sequence is made of. -/
theorem State.hitsFrom_withHit (s : State) (a hl : Word) (pi : BitVec 3) (sj : BitVec 4) (sp : Word) (i n pos : Nat) :
    (s.withHit a hl pi sj sp).hitsFrom i n pos = s.hitsFrom i n pos := by
  induction n generalizing pos with
  | zero => rfl
  | succ n ih =>
    rw [State.hitsFrom, State.hitsFrom, ih, ih]
    rfl

theorem State.elements_withHit (s : State) (a hl : Word) (pi : BitVec 3) (sj : BitVec 4) (sp : Word) (i pos : Nat) :
    (s.withHit a hl pi sj sp).elements i pos = s.elements i pos := by
  rw [State.elements, State.elements, State.hits, State.hits, State.hitsFrom_withHit]
  rfl

theorem State.elements_afterHit (s : State) (j h i pos : Nat) : (s.afterHit j h).elements i pos = s.elements i pos :=
  s.elements_withHit _ _ _ _ _ i pos

theorem State.np_withHit (s : State) (a hl : Word) (pi : BitVec 3) (sj : BitVec 4) (sp : Word) :
    (s.withHit a hl pi sj sp).np = s.np := rfl

theorem State.np_afterHit (s : State) (j h : Nat) : (s.afterHit j h).np = s.np := s.np_withHit _ _ _ _ _

/-- Without a further occurrence nothing remains. -/
theorem State.remaining_of_noHit {s : State} (hno : s.NoHitBefore s.np.toNat) : s.remaining = [] := by
  refine List.flatMap_eq_nil_iff.mpr fun j hj => State.elements_of_noHit fun x hx => ?_
  have hrange := List.mem_range'_1.mp hj
  exact hno j x (by omega) (by omega) hx

/-- What remains before a first hit is the hit and what remains after it. -/
theorem State.remaining_of_firstHit {s : State} (hinv : s.ScanInv) (hs : s.ss = .active) {j h : Nat}
    (hfirst : s.FirstHitAt j h) :
    s.remaining = (j, h, cand h (s.slotAt j).po) :: (s.afterHit j h).remaining := by
  obtain ⟨-, -, hsj', hsp⟩ := State.afterHit_toNat hinv hs hfirst
  obtain ⟨hlegal, -, -⟩ := hinv
  obtain ⟨-, -, hlen⟩ := hlegal (by simp [hs])
  obtain ⟨hsj, hj, hstart, hocc, hlow, hbefore⟩ := hfirst
  have hlen1 := ((Slot.lengthLegal_iff _).mp (hlen j hj)).1
  have hskipped : (List.range' s.sj.toNat (j - s.sj.toNat)).flatMap (fun i => s.elements i (s.searchStart i)) = [] := by
    refine List.flatMap_eq_nil_iff.mpr fun i hi => State.elements_of_noHit fun x hx => ?_
    have hrange := List.mem_range'_1.mp hi
    exact hbefore i x (by omega) (by omega) hx
  have hsplit : List.range' s.sj.toNat (s.np.toNat - s.sj.toNat) =
      List.range' s.sj.toNat (j - s.sj.toNat) ++ j :: List.range' (j + 1) (s.np.toNat - j - 1) := by
    rw [← List.range'_succ, show s.np.toNat - s.sj.toNat = (j - s.sj.toNat) + (s.np.toNat - j - 1 + 1) by omega,
      ← List.range'_append_1, show s.sj.toNat + (j - s.sj.toNat) = j by omega]
  have hrest : (List.range' (j + 1) (s.np.toNat - j - 1)).flatMap (fun i => s.elements i (s.searchStart i)) =
      (List.range' (j + 1) (s.np.toNat - j - 1)).flatMap
        (fun i => (s.afterHit j h).elements i ((s.afterHit j h).searchStart i)) := by
    refine List.flatMap_congr fun i hi => ?_
    have hrange := List.mem_range'_1.mp hi
    rw [State.elements_afterHit, State.searchStart, State.searchStart, if_neg (by omega), if_neg (by omega)]
  have hhead : s.elements j (s.searchStart j) =
      (j, h, cand h (s.slotAt j).po) :: (s.afterHit j h).elements j ((s.afterHit j h).searchStart j) := by
    rw [State.elements_afterHit, State.searchStart.eq_1 (s.afterHit j h), if_pos hsj'.symm, hsp, State.elements,
      State.hits_of_least hlen1 hstart hocc hlow]
    rfl
  have hnp : (s.afterHit j h).np.toNat - j = s.np.toNat - j - 1 + 1 := by
    rw [State.np_afterHit]
    omega
  rw [State.remaining, hsplit, List.flatMap_append, hskipped, List.nil_append, List.flatMap_cons, hhead, hrest,
    State.remaining, hsj', hnp, List.range'_succ, List.flatMap_cons]
  rfl

/-- The end of a successful SCANN writes no scan register. -/
theorem State.ScanInv.succeed_nextDraw {s : State} (h : s.ScanInv) : s.succeed.nextDraw.ScanInv := h

/-- A hit leaves the scan active, within its invariant. -/
theorem State.afterHit_scanInv {s : State} (hsnap : s.SnapInv) (hio : s.NoIoFailure) (hinv : s.ScanInv)
    (hs : s.ss = .active) {j h : Nat} (hfirst : s.FirstHitAt j h) : (s.afterHit j h).ScanInv := by
  rcases State.scanNext_spec hsnap hinv hs with ⟨-, x, hx⟩ | ⟨i, l, hil, hnext⟩ | ⟨hno, -⟩
  · rw [hio x] at hx; cases hx
  · obtain ⟨rfl, rfl⟩ := hfirst.unique hil
    have hinv' := State.scanNext_scanInv hinv hnext
    rw [← State.settle_reportHit hsnap, State.settle_ok]
    exact hinv'.succeed_nextDraw
  · exact absurd hno hfirst.not_noHit

theorem State.withHit_snapInv (s : State) (a hl : Word) (pi : BitVec 3) (sj : BitVec 4) (sp : Word) :
    (s.withHit a hl pi sj sp).SnapInv := .inr rfl

theorem State.withHit_params (s : State) (a hl : Word) (pi : BitVec 3) (sj : BitVec 4) (sp : Word) :
    (s.withHit a hl pi sj sp).params = s.params := rfl

theorem State.withHit_ss (s : State) (a hl : Word) (pi : BitVec 3) (sj : BitVec 4) (sp : Word) :
    (s.withHit a hl pi sj sp).ss = s.ss := rfl

/-- The results of SCANNs are what the scan has still to yield, in order. -/
theorem scannResults_eq_take (n : Nat) {s : State} (hparams : s.params.imgIoFaults = false) (hsnap : s.SnapInv)
    (hinv : s.ScanInv) (hs : s.ss = .active) : scannResults n s = s.remaining.take n := by
  induction n generalizing s with
  | zero => rw [scannResults, List.take_zero]
  | succ n ih =>
    have hio := State.noIoFailure_of_default hparams
    rcases exec_scann_active hsnap hio hinv hs with ⟨j, h, hfirst, hexec⟩ | ⟨hno, hexec⟩
    · obtain ⟨hhl, hpi, -, -⟩ := State.afterHit_toNat hinv hs hfirst
      have hrest : scannResults n (s.afterHit j h) = (s.afterHit j h).remaining.take n :=
        ih ((s.withHit_params _ _ _ _ _).symm ▸ hparams) (s.withHit_snapInv _ _ _ _ _)
          (State.afterHit_scanInv hsnap hio hinv hs hfirst) ((s.withHit_ss _ _ _ _ _).trans hs)
      have hfnd : (s.afterHit j h).fnd = true := rfl
      have ha : (s.afterHit j h).a = cand h (s.slotAt j).po := rfl
      simp only [scannResults, hexec, hfnd, if_true]
      rw [State.remaining_of_firstHit hinv hs hfirst, List.take_succ_cons, hrest, hhl, hpi, ha]
    · rw [State.remaining_of_noHit hno, List.take_nil]
      simp [scannResults, hexec, State.afterExhaustion]

/-- At the start of a scan its whole sequence remains (R164). -/
theorem State.scanSequence_eq_remaining {s : State} (hsj : s.sj = 0) (hsp : s.sp = 0) :
    s.scanSequence = s.remaining := by
  have hstart (j : Nat) : s.searchStart j = 0 := by simp [State.searchStart, hsp]
  simp only [State.remaining, State.scanSequence, List.range_eq_range', hsj, hstart]
  rfl

/-- What a successful SCANS leaves (R162). -/
theorem exec_scans_ok {s t : State} (h : exec .scans s = .next t) (herr : t.err = 0) :
    t.ScanInv ∧ t.ss = .active ∧ t.sj = 0 ∧ t.sp = 0 ∧ t.snap = s.snap ∧ t.img = s.img ∧ t.params = s.params := by
  obtain rfl := Host.Outcome.next.inj h
  rcases s.withHeader_cases State.startScan with ⟨e, -, hs⟩ | ⟨u, e, -, -, hs⟩ | ⟨u, v, hp, hv, hs⟩ <;>
    rw [hs] at herr ⊢
  · exact absurd herr (errClass_ne_zero e)
  · exact absurd herr (errClass_ne_zero e)
  · have hscan := State.startScan_scanInv (State.ensureHeader_eq_of_hv hp).1 hv
    obtain rfl := State.startScan_ok hv
    refine ⟨hscan.succeed_nextDraw, rfl, rfl, rfl, ?_⟩
    rcases State.ensureHeader_ok hp with ⟨-, rfl⟩ | ⟨-, -, b4, b5, b6, -, -, -, rfl⟩ <;> exact ⟨rfl, rfl, rfl⟩

/-- Settles O47: after SCANS the whole sequence remains, and SCANNs yield what remains. -/
theorem scannsYieldTheSequence : Obligations.ScannsYieldTheSequence := by
  intro s t hsnap hparams h herr n
  obtain ⟨hinv, hs, hsj, hsp, hsnap', himg, hpar⟩ := exec_scans_ok h herr
  have hsnapt : t.SnapInv := by rwa [State.SnapInv, hsnap', himg]
  rw [State.scanSequence_eq_remaining hsj hsp, scannResults_eq_take n (hpar ▸ hparams) hsnapt hinv hs]

end Sys2Proof.Machine

/-! PROOFS. The whole machine: the header is immutable once parsed (R27, R258), every transaction completes (R261), a
failing command writes only the error registers (R229), and the canonical form of images (log 4). -/

namespace Sys2Proof.Machine

open Sys2Proof

/-! ### What an instruction but a reset can do

Such an instruction is a chain of the model's named updates. A field that no update writes is a field that no such
instruction writes, and one induction says so. -/

/-- `t` is reached from `s` by named updates; the header registers are written only while no header is parsed. -/
inductive Updates (s : State) : State → Prop where
  | refl : Updates s s
  | raise {t : State} (e : CmdError) : Updates s t → Updates s (t.raise e)
  | succeed {t : State} : Updates s t → Updates s t.succeed
  | nextDraw {t : State} : Updates s t → Updates s t.nextDraw
  | storeHeader {t : State} (b4 b5 b6 : Byte) : t.hv = false → Updates s t → Updates s (t.storeHeader b4 b5 b6)
  | storeCode {t : State} (chars : List Byte) : Updates s t → Updates s (t.storeCode chars)
  | storePatch {t : State} (p : Patch) : Updates s t → Updates s (t.storePatch p)
  | fillSnap {t : State} : Updates s t → Updates s t.fillSnap
  | deliver {t : State} (r : Option Byte) : Updates s t → Updates s (t.deliver r)
  | startScan {t : State} : Updates s t → Updates s { t with ss := .active, sj := 0, sp := 0, fnd := false }
  | clearFound {t : State} : Updates s t → Updates s { t with fnd := false }
  | reportHit {t : State} (j h : Nat) : Updates s t → Updates s (t.reportHit j h)
  | reportExhausted {t : State} (j : Nat) : Updates s t → Updates s (t.reportExhausted j)
  | writeReg {t : State} (r : Reg) (w : Word) : Updates s t → Updates s (t.writeReg r w)
  | reply {t : State} (w : Word) : Updates s t → Updates s { t with reply := some w }

/-- A command body whose writes are named updates. -/
def BodyUpdates (body : State → Except CmdError State) : Prop :=
  ∀ s t : State, body s = .ok t → Updates s t

theorem Updates.trans {s t u : State} (hst : Updates s t) (htu : Updates t u) : Updates s u := by
  induction htu with
  | refl => exact hst
  | raise e _ ih => exact ih.raise e
  | succeed _ ih => exact ih.succeed
  | nextDraw _ ih => exact ih.nextDraw
  | storeHeader b4 b5 b6 hv _ ih => exact ih.storeHeader b4 b5 b6 hv
  | storeCode chars _ ih => exact ih.storeCode chars
  | storePatch p _ ih => exact ih.storePatch p
  | fillSnap _ ih => exact ih.fillSnap
  | deliver r _ ih => exact ih.deliver r
  | startScan _ ih => exact ih.startScan
  | clearFound _ ih => exact ih.clearFound
  | reportHit j h _ ih => exact ih.reportHit j h
  | reportExhausted j _ ih => exact ih.reportExhausted j
  | writeReg r w _ ih => exact ih.writeReg r w
  | reply w _ ih => exact ih.reply w

theorem ensureHeader_updates : BodyUpdates State.ensureHeader := by
  intro s h hp
  rcases State.ensureHeader_ok hp with ⟨-, rfl⟩ | ⟨hv, -, b4, b5, b6, -, -, -, rfl⟩
  · exact .refl
  · exact .storeHeader b4 b5 b6 hv .refl

theorem BodyUpdates.settle {body : State → Except CmdError State} (hb : BodyUpdates body) (s : State) :
    Updates s (s.settle (body s)) := by
  rcases s.settle_cases (body s) with ⟨t, ht, hs⟩ | ⟨e, -, hs⟩ <;> rw [hs]
  · exact (hb s t ht).succeed
  · exact Updates.refl.raise e

theorem BodyUpdates.withHeader {body : State → Except CmdError State} (hb : BodyUpdates body) (s : State) :
    Updates s (s.withHeader body) := by
  unfold State.withHeader
  cases hp : s.ensureHeader with
  | error e => exact (Updates.refl.raise e).nextDraw
  | ok h => exact ((ensureHeader_updates s h hp).trans (hb.settle h)).nextDraw

theorem readBank_updates (r : Region) : BodyUpdates (·.readBank r) := by
  intro s t h
  obtain ⟨b, rfl⟩ := State.readBank_ok h
  exact Updates.refl.fillSnap.deliver b

theorem readBankAt_updates (r : Region) : BodyUpdates (·.readBankAt r) := by
  intro s t h
  obtain ⟨b, rfl⟩ := State.readBankAt_ok h
  exact Updates.refl.fillSnap.deliver b

theorem readRegion_updates : BodyUpdates State.readRegion := by
  intro s t h
  rcases State.readRegion_ok h with rfl | ⟨b, rfl⟩
  · exact Updates.refl.deliver none
  · exact Updates.refl.fillSnap.deliver b

theorem startScan_updates : BodyUpdates State.startScan := by
  intro s t h
  obtain rfl := State.startScan_ok h
  exact Updates.refl.startScan

theorem scanNext_updates : BodyUpdates State.scanNext := by
  intro s t h
  rcases State.scanNext_ok h with rfl | ⟨j, l, rfl⟩ | ⟨j, rfl⟩
  · exact Updates.refl.clearFound
  · exact Updates.refl.fillSnap.reportHit j l
  · exact Updates.refl.fillSnap.reportExhausted j

theorem encodeOperands_updates (withCompare : Bool) : BodyUpdates (·.encodeOperands withCompare) := by
  intro s t h
  obtain ⟨p, -, rfl⟩ := State.encodeOperands_ok h
  exact Updates.refl.storeCode _

/-- Every command but RST is a chain of updates. -/
theorem exec_command_updates {i : Instr} {op : Byte} {s t : State} (h : exec i s = .next t)
    (hop : opcode? i = some op) (hrst : i ≠ .rst) : Updates s t := by
  cases i with
  | nop => cases h; exact Updates.refl.succeed
  | rst => exact absurd rfl hrst
  | enc6 => cases h; exact (encodeOperands_updates false).settle s
  | enc8 => cases h; exact (encodeOperands_updates true).settle s
  | dec =>
    rcases execDec_cases s with ⟨e, -, hd⟩ | ⟨p, -, hd⟩ <;> cases hd.symm.trans h
    · exact Updates.refl.raise e
    · exact (Updates.refl.storePatch p).succeed
  | hdr => cases h; exact BodyUpdates.withHeader (body := fun h => .ok h) (fun s t ht => by cases ht; exact .refl) s
  | rdp => cases h; exact (readBank_updates .prg).withHeader s
  | rdc => cases h; exact (readBank_updates .chr).withHeader s
  | rdr => cases h; exact readRegion_updates.withHeader s
  | rdpa => cases h; exact (readBankAt_updates .prg).withHeader s
  | rdca => cases h; exact (readBankAt_updates .chr).withHeader s
  | scans => cases h; exact startScan_updates.withHeader s
  | scann => cases h; exact (scanNext_updates.settle s).nextDraw
  | wr reg data => cases hop
  | rd reg => cases hop

/-- Every instruction resets the block or is a chain of updates. -/
theorem exec_cases {i : Instr} {s t : State} (h : exec i s = .next t) :
    (isReset i = true ∧ t = s.resetBlock) ∨ Updates s t := by
  cases i with
  | rst => cases h; exact .inl ⟨rfl, rfl⟩
  | rd reg =>
    rcases execRd_cases reg s with ⟨-, hr⟩ | ⟨r, -, hr⟩ <;> cases hr.symm.trans h
    · exact .inr ((Updates.refl.raise _).reply 0)
    · exact .inr (Updates.refl.reply _)
  | wr reg data =>
    rcases execWr_cases reg data s with ⟨-, hw⟩ | ⟨hcmd, hw⟩ | ⟨r, -, -, hw⟩
    · cases hw.symm.trans h; exact .inr (Updates.refl.raise _)
    · have hrun := hw.symm.trans h
      rcases runCommand_cases (data.setWidth 8) s with ⟨i, hop, hc⟩ | hc
      · have hi := hc.symm.trans hrun
        by_cases hrst : i = .rst
        · subst hrst
          cases hi
          have hdata : data.setWidth 8 = 0x01#8 := (Option.some.inj hop).symm
          exact .inl ⟨by simp [isReset, (regOfNumber_eq_cmd_iff reg).mp hcmd, hdata], rfl⟩
        · exact .inr (exec_command_updates hi hop hrst)
      · cases hc.symm.trans hrun; exact .inr (Updates.refl.raise _)
    · cases hw.symm.trans h; exact .inr (Updates.refl.writeReg r data)
  | nop | enc6 | enc8 | dec | hdr | rdp | rdc | rdr | rdpa | rdca | scans | scann =>
    exact .inr (exec_command_updates h rfl nofun)

/-! ### The header registers (R27, R258) -/

/-- The header registers as one value. -/
def State.header (s : State) : Bool × Byte × Byte × Bool × Word := (s.hv, s.prgn, s.chrn, s.trn, s.poff)

/-- Named updates keep a parsed header. -/
theorem Updates.header {s t : State} (h : Updates s t) (hv : s.hv = true) : t.header = s.header := by
  induction h with
  | refl => rfl
  | storeHeader b4 b5 b6 hfalse _ ih =>
    rw [State.header, State.header, Prod.mk.injEq, hfalse, hv] at ih
    cases ih.1
  | reportHit j l _ ih => simpa [State.header] using ih
  | writeReg r w _ ih => rw [← ih]; cases r <;> rfl
  | _ => assumption

/-- Settles O52: an instruction that is no reset is a chain of updates. -/
theorem parsedHeaderIsImmutable : Obligations.ParsedHeaderIsImmutable := by
  intro i s t hv hreset h
  rcases exec_cases h with ⟨hr, -⟩ | hupd
  · rw [hreset] at hr; cases hr
  · have hheader := hupd.header hv
    simp only [State.header, Prod.mk.injEq, hv] at hheader
    exact hheader

/-! ### Completion (R261) -/

theorem Updates.script {s t : State} (h : Updates s t) : t.script = s.script := by
  induction h with
  | refl => rfl
  | reportHit j l _ ih => simpa using ih
  | writeReg r w _ ih => rw [← ih]; cases r <;> rfl
  | _ => assumption

/-- No instruction touches the events still to come (log 1, log 12). -/
theorem exec_script {i : Instr} {s t : State} (h : exec i s = .next t) : t.script = s.script := by
  rcases exec_cases h with ⟨-, rfl⟩ | hupd
  · rfl
  · exact hupd.script

theorem exec_command_next {i : Instr} {op : Byte} (hop : opcode? i = some op) (s : State) :
    ∃ t, exec i s = .next t := by
  cases i with
  | wr reg data => cases hop
  | rd reg => cases hop
  | _ => exact ⟨_, rfl⟩

/-- Every instruction has a next state. -/
theorem exec_next (i : Instr) (s : State) : ∃ t, exec i s = .next t := by
  cases i with
  | wr reg data =>
    rcases execWr_cases reg data s with ⟨-, hw⟩ | ⟨-, hw⟩ | ⟨r, -, -, hw⟩
    · exact ⟨_, hw⟩
    · rcases runCommand_cases (data.setWidth 8) s with ⟨i, hop, hc⟩ | hc
      · obtain ⟨t, ht⟩ := exec_command_next hop s
        exact ⟨t, hw.trans (hc.trans ht)⟩
      · exact ⟨_, hw.trans hc⟩
    · exact ⟨_, hw⟩
  | rd reg =>
    rcases execRd_cases reg s with ⟨-, hr⟩ | ⟨r, -, hr⟩
    · exact ⟨_, hr⟩
    · exact ⟨_, hr⟩
  | nop | rst | enc6 | enc8 | dec | hdr | rdp | rdc | rdr | rdpa | rdca | scans | scann =>
    exact exec_command_next rfl s

/-- A step of a legal script has a next state, without the event it took. -/
theorem step_of_scriptLegal {s : State} (h : s.ScriptLegal) : ∃ t, step s = .next t ∧ t.script = s.script.drop 1 := by
  match hs : s.script with
  | [] => exact ⟨s, step_idle hs, hs⟩
  | .reset image :: rest => exact ⟨_, step_reset hs, rfl⟩
  | .bus w :: rest =>
    have hw : w.wellFormed = true := h (.bus w) (by simp [hs])
    cases hdec : decodeBus48 w with
    | error e =>
      rw [(decodeBus48_eq_error_iff w).mp ⟨e, hdec⟩] at hw
      cases hw
    | ok i =>
      obtain ⟨t, ht⟩ := exec_next i (s.takeEvent rest)
      exact ⟨t, (step_bus_of_ok hs hdec).trans ht, exec_script ht⟩

/-- Settles O50: every instruction answers, and by induction every step of a legal script does. -/
theorem everyTransactionCompletes : Obligations.EveryTransactionCompletes := by
  refine ⟨exec_next, fun n => ?_⟩
  induction n with
  | zero => exact fun s _ => ⟨s, rfl, rfl⟩
  | succ n ih =>
    intro s hlegal
    obtain ⟨t, hstep, hscript⟩ := step_of_scriptLegal hlegal
    have hlegal' : t.ScriptLegal := fun e he => hlegal e (List.mem_of_mem_drop (hscript ▸ he))
    obtain ⟨u, hu, hdrop⟩ := ih t hlegal'
    refine ⟨u, by simp [stepMany, hstep, hu], ?_⟩
    rw [hdrop, hscript, List.drop_drop, Nat.add_comm]

/-! ### Failing commands (R184, R229) -/

/-- How a command but RST ends, in the state it begins in or in the one with the header just parsed: by an error entry
alone, an I/O failure only where a draw fails, or with `ERR`, `EINFO` clear and the sticky bits as they were. -/
def CommandEnds (s t : State) : Prop :=
  (∃ h e n, (h = s ∨ s.ensureHeader = .ok h) ∧ t = { h.raise e with draws := n } ∧
    (e = .ioFailure → ∃ x, s.ioFails x = true)) ∨
  (t.err = 0 ∧ t.einfo = 0 ∧ t.estk = s.estk)

/-- A command body that answers an I/O failure only where a draw fails (R79). -/
def FailsByDraw (body : State → Except CmdError State) : Prop :=
  ∀ s : State, body s = .error .ioFailure → ∃ x, s.ioFails x = true

theorem commandEnds_settle {body : State → Except CmdError State} (hb : KeepsSticky body) (hd : FailsByDraw body)
    (s : State) : CommandEnds s (s.settle (body s)) := by
  rcases s.settle_cases (body s) with ⟨t, ht, hs⟩ | ⟨e, he, hs⟩ <;> rw [hs]
  · exact .inr ⟨rfl, rfl, hb s t ht⟩
  · exact .inl ⟨s, e, s.draws, .inl rfl, rfl, fun hio => hd s (hio ▸ he)⟩

/-- The draw counter stands outside. -/
theorem CommandEnds.nextDraw {s t : State} (h : CommandEnds s t) : CommandEnds s t.nextDraw := by
  rcases h with ⟨h, e, n, hh, rfl, hio⟩ | hok
  · exact .inl ⟨h, e, n + 1, hh, rfl, hio⟩
  · exact .inr hok

theorem ensureHeader_failsByDraw : FailsByDraw State.ensureHeader := by
  intro s hp
  by_contra hno
  have hf (x : Nat) : s.ioFails x = false := by
    rw [← Bool.not_eq_true]
    exact fun hx => hno ⟨x, hx⟩
  unfold State.ensureHeader at hp
  split at hp
  · cases hp
  split at hp
  · cases hp
  rcases s.headerByte_cases 4 with ⟨h4, -⟩ | ⟨-, -, h4⟩ | ⟨-, b4, -, h4⟩
  · simp [hf] at h4
  · simp [h4] at hp
  rcases s.headerByte_cases 5 with ⟨h5, -⟩ | ⟨-, -, h5⟩ | ⟨-, b5, -, h5⟩
  · simp [hf] at h5
  · simp [h4, h5] at hp
  rcases s.headerByte_cases 6 with ⟨h6, -⟩ | ⟨-, -, h6⟩ | ⟨-, b6, -, h6⟩
  · simp [hf] at h6
  · simp [h4, h5, h6] at hp
  · simp [h4, h5, h6] at hp

/-- The parse changes neither the parameters nor the draw. -/
theorem State.ensureHeader_ioFails {s h : State} (hp : s.ensureHeader = .ok h) (x : Nat) : h.ioFails x = s.ioFails x := by
  rcases State.ensureHeader_ok hp with ⟨-, rfl⟩ | ⟨-, -, b4, b5, b6, -, -, -, rfl⟩ <;> rfl

theorem commandEnds_withHeader {body : State → Except CmdError State} (hb : KeepsSticky body) (hd : FailsByDraw body)
    (s : State) : CommandEnds s (s.withHeader body) := by
  rcases s.withHeader_cases body with ⟨e, hp, hs⟩ | ⟨h, e, hp, he, hs⟩ | ⟨h, t, hp, ht, hs⟩ <;> rw [hs]
  · exact .inl ⟨s, e, s.draws + 1, .inl rfl, rfl, fun hio => ensureHeader_failsByDraw s (hio ▸ hp)⟩
  · refine .inl ⟨h, e, h.draws + 1, .inr hp, rfl, fun hio => ?_⟩
    obtain ⟨x, hx⟩ := hd h (hio ▸ he)
    exact ⟨x, State.ensureHeader_ioFails hp x ▸ hx⟩
  · exact .inr ⟨rfl, rfl, (hb h t ht).trans (ensureHeader_keepsSticky s h hp)⟩

theorem State.readPayload_error {s : State} {off : Nat} {e : CmdError} (h : s.readPayload off = .error e) :
    e = .ioFailure ∧ s.ioFails off = true := by
  rcases s.readPayload_cases off with ⟨hf, hr⟩ | ⟨-, hr⟩ <;> cases hr.symm.trans h
  exact ⟨rfl, hf⟩

theorem readBank_failsByDraw (r : Region) : FailsByDraw (·.readBank r) := by
  intro s h
  rcases s.readBank_cases r with ⟨-, hr⟩ | ⟨-, -, hr⟩ | ⟨-, -, hr⟩
  · cases hr.symm.trans h
  · cases hr.symm.trans h
  · exact ⟨_, (State.readPayload_error (hr.symm.trans h)).2⟩

theorem readBankAt_failsByDraw (r : Region) : FailsByDraw (·.readBankAt r) := by
  intro s h
  rcases s.readBankAt_cases r with ⟨-, hr⟩ | ⟨-, -, hr⟩ | ⟨-, -, hr⟩
  · cases hr.symm.trans h
  · cases hr.symm.trans h
  · exact ⟨_, (State.readPayload_error (hr.symm.trans h)).2⟩

theorem readRegion_failsByDraw : FailsByDraw State.readRegion := by
  intro s h
  rcases s.readRegion_cases with ⟨-, hr⟩ | ⟨-, hr⟩
  · cases hr.symm.trans h
  · exact ⟨_, (State.readPayload_error (hr.symm.trans h)).2⟩

theorem startScan_failsByDraw : FailsByDraw State.startScan := by
  intro s h
  rcases s.startScan_cases with ⟨-, hr⟩ | ⟨-, _, -, hr⟩ | ⟨-, -, hr⟩ <;> cases hr.symm.trans h

theorem scanNext_failsByDraw : FailsByDraw State.scanNext := by
  intro s h
  rcases s.scanNext_cases with ⟨-, hr⟩ | ⟨-, hr⟩ | ⟨-, ⟨-, hx⟩ | ⟨j, l, -, hr⟩ | ⟨j, -, hr⟩⟩
  · cases hr.symm.trans h
  · cases hr.symm.trans h
  · exact hx
  · exact nomatch hr.symm.trans h
  · exact nomatch hr.symm.trans h

theorem encodeOperands_failsByDraw (withCompare : Bool) : FailsByDraw (·.encodeOperands withCompare) := by
  intro s h
  simp only [State.encodeOperands] at h
  rcases s.operandPatch_cases withCompare with ⟨-, hr⟩ | ⟨-, -, hr⟩ | ⟨-, -, -, -, hr⟩ | ⟨-, -, -, hr⟩ <;>
    simp [hr] at h

/-- The errors of DEC are errors of the format (R221). -/
theorem decodeCells_error {k : Vector Byte 8} {kl : BitVec 4} {e : CmdError} (h : decodeCells k kl = .error e) :
    e ≠ .ioFailure := by
  rcases decodeCells_cases k kl with ⟨-, -, hr⟩ | ⟨-, e', hread, hr⟩ | ⟨-, ns, -, hr⟩ <;> cases hr.symm.trans h
  · nofun
  · obtain ⟨m, -, rfl, -⟩ := readNibbles_error hread
    nofun

/-- Every command but RST ends so. -/
theorem exec_command_ends {i : Instr} {op : Byte} {s t : State} (h : exec i s = .next t)
    (hop : opcode? i = some op) (hrst : i ≠ .rst) : CommandEnds s t := by
  cases i with
  | nop => cases h; exact .inr ⟨rfl, rfl, rfl⟩
  | rst => exact absurd rfl hrst
  | enc6 => cases h; exact commandEnds_settle (encodeOperands_keepsSticky false) (encodeOperands_failsByDraw false) s
  | enc8 => cases h; exact commandEnds_settle (encodeOperands_keepsSticky true) (encodeOperands_failsByDraw true) s
  | dec =>
    rcases execDec_cases s with ⟨e, he, hd⟩ | ⟨p, -, hd⟩ <;> cases hd.symm.trans h
    · exact .inl ⟨s, e, s.draws, .inl rfl, rfl, fun hio => absurd hio (decodeCells_error he)⟩
    · exact .inr ⟨rfl, rfl, rfl⟩
  | hdr => cases h; exact commandEnds_withHeader ok_keepsSticky (fun s h => by cases h) s
  | rdp => cases h; exact commandEnds_withHeader (readBank_keepsSticky .prg) (readBank_failsByDraw .prg) s
  | rdc => cases h; exact commandEnds_withHeader (readBank_keepsSticky .chr) (readBank_failsByDraw .chr) s
  | rdr => cases h; exact commandEnds_withHeader readRegion_keepsSticky readRegion_failsByDraw s
  | rdpa => cases h; exact commandEnds_withHeader (readBankAt_keepsSticky .prg) (readBankAt_failsByDraw .prg) s
  | rdca => cases h; exact commandEnds_withHeader (readBankAt_keepsSticky .chr) (readBankAt_failsByDraw .chr) s
  | scans => cases h; exact commandEnds_withHeader startScan_keepsSticky startScan_failsByDraw s
  | scann => cases h; exact (commandEnds_settle scanNext_keepsSticky scanNext_failsByDraw s).nextDraw
  | wr reg data => cases hop
  | rd reg => cases hop

/-- Settles O54: a command ends by an error entry, in the state it began in or in that of HDR, or without an error. -/
theorem failingCommandWritesOnlyErrorRegisters : Obligations.FailingCommandWritesOnlyErrorRegisters := by
  intro i s t hop h
  obtain ⟨op, hop⟩ := Option.ne_none_iff_exists'.mp hop
  by_cases hrst : i = .rst
  · subst hrst
    cases h
    exact ⟨fun herr => absurd rfl herr, fun _ => ⟨rfl, fun hne => absurd rfl hne⟩⟩
  rcases exec_command_ends h hop hrst with ⟨u, e, n, hu, rfl, -⟩ | ⟨herr, heinfo, hestk⟩
  · refine ⟨fun _ => ?_, fun herr => absurd herr (errClass_ne_zero e)⟩
    rcases hu with rfl | hp
    · exact ⟨rfl, id, fun _ => ⟨rfl, rfl, rfl, rfl⟩, fun hne => absurd rfl hne⟩
    · rcases State.ensureHeader_ok hp with ⟨-, rfl⟩ | ⟨hv, -, b4, b5, b6, -, -, -, rfl⟩
      · exact ⟨rfl, id, fun _ => ⟨rfl, rfl, rfl, rfl⟩, fun hne => absurd rfl hne⟩
      · exact ⟨rfl, fun _ => rfl, fun heq => absurd (heq.trans hv) (by simp),
          fun _ => ⟨_, exec_hdr_of_ok hp, rfl, rfl, rfl, rfl, rfl, rfl⟩⟩
  · exact ⟨fun hne => absurd herr hne, fun _ => ⟨heinfo, fun _ => hestk⟩⟩

/-! ### The canonical form of images (log 4) -/

/-- Canonical cells that read alike are equal: a first cell of one that the other lacks would read as a nonzero byte in
one and as 0 in the other. -/
theorem cells_eq_of_lookupCell {lo hi : Nat} {xs ys : List Host.Cell} (hx : cellsWf lo hi xs = true)
    (hy : cellsWf lo hi ys = true) (h : ∀ off, lo ≤ off → off < hi → lookupCell xs off = lookupCell ys off) :
    xs = ys := by
  induction xs generalizing lo ys with
  | nil =>
    cases ys with
    | nil => rfl
    | cons cell rest =>
      obtain ⟨y, c⟩ := cell
      simp only [cellsWf, Bool.and_eq_true, decide_eq_true_eq, bne_iff_ne] at hy
      obtain ⟨⟨⟨hlo, hhi⟩, hc⟩, -⟩ := hy
      exact absurd (by simpa [lookupCell] using (h y hlo hhi).symm) hc
  | cons cell rest ih =>
    obtain ⟨x, b⟩ := cell
    simp only [cellsWf, Bool.and_eq_true, decide_eq_true_eq, bne_iff_ne] at hx
    obtain ⟨⟨⟨hlox, hhix⟩, hb⟩, hrestx⟩ := hx
    cases ys with
    | nil => exact absurd (by simpa [lookupCell] using h x hlox hhix) hb
    | cons cell' rest' =>
      obtain ⟨y, c⟩ := cell'
      have hywf := hy
      simp only [cellsWf, Bool.and_eq_true, decide_eq_true_eq, bne_iff_ne] at hy
      obtain ⟨⟨⟨hloy, hhiy⟩, hc⟩, hresty⟩ := hy
      rcases Nat.lt_trichotomy x y with hxy | rfl | hxy
      · have hx0 := h x hlox hhix
        rw [lookupCell, if_pos rfl, lookupCell, if_neg (by omega), lookupCell_below hresty (by omega)] at hx0
        exact absurd hx0 hb
      · have hbc := h x hlox hhix
        simp only [lookupCell, if_true] at hbc
        have hrest : rest = rest' := ih hrestx hresty fun off hoff hoffhi => by
          have hoff' := h off (by omega) hoffhi
          rwa [lookupCell, if_neg (by omega), lookupCell, if_neg (by omega)] at hoff'
        rw [hbc, hrest]
      · have hy0 := h y hloy hhiy
        rw [lookupCell, if_neg (by omega), lookupCell_below hrestx (by omega), lookupCell, if_pos rfl] at hy0
        exact absurd hy0.symm hc

/-- Settles O55: below the length a read is the lookup of a cell. -/
theorem canonicalImagesAreDeterminedByTheirBytes : Obligations.CanonicalImagesAreDeterminedByTheirBytes := by
  rintro ⟨len, xs⟩ ⟨len', ys⟩ hx hy hlen h
  obtain rfl : len = len' := hlen
  refine congrArg (Image.mk len) (cells_eq_of_lookupCell hx hy fun off _ hoff => ?_)
  have hx := Image.read_of_lt (i := ⟨len, xs⟩) hoff
  have hy := Image.read_of_lt (i := ⟨len, ys⟩) hoff
  exact Option.some.inj (hx.symm.trans ((h off hoff).trans hy))

end Sys2Proof.Machine

/-! PROOFS. Which commands end with IO_FAILURE, and when (R61, R79, R223). -/

namespace Sys2Proof.Machine

open Sys2Proof

/-! ### The error entry IO_FAILURE (R223, R225) -/

/-- Class 3 with `EINFO` 3 is IO_FAILURE and no other error. -/
theorem eq_ioFailure_of_errInfo {e : CmdError} (hclass : errClass e = 3) (hinfo : errInfo e = 0x0003) :
    e = .ioFailure := by
  have hsub : (errIdx e).toNat * 256 + (errSub e).toNat = 3 := by
    rw [← errInfo_toNat, hinfo]
    rfl
  cases e with
  | ioFailure => rfl
  | shortHeader => simp [errIdx, errSub] at hsub
  | bankIndex bi => simp [errSub] at hsub
  | _ => simp [errClass] at hclass

/-- An error entry is the one of IO_FAILURE, or does not end in it. -/
theorem State.raise_endedInIoFailure {s : State} {e : CmdError} (h : (s.raise e).EndedInIoFailure) : e = .ioFailure :=
  eq_ioFailure_of_errInfo h.1 h.2

theorem State.ioFailed_ended (s : State) : s.ioFailed.EndedInIoFailure := ⟨rfl, rfl⟩

/-- A command without an error has not ended so. -/
theorem State.not_ended_of_err {t : State} (h : t.err = 0) : ¬ t.EndedInIoFailure := by
  rintro ⟨herr, -⟩
  rw [h] at herr
  cases herr

/-! ### With the header parsed -/

/-- A command whose operands are in range is one payload read. -/
theorem exec_of_payloadOffset {s : State} {i : Instr} {off : Nat} (hv : s.hv = true)
    (h : s.payloadOffset i = some off) : exec i s = .next (s.settle (s.readPayload off)).nextDraw := by
  cases i with
  | rdp =>
    obtain ⟨⟨hbi, hbo⟩, ⟨⟩⟩ := Option.ite_none_right_eq_some.mp h
    rw [exec_rdp hv, State.readBank_eq (r := .prg) hbi hbo]
    rfl
  | rdc =>
    obtain ⟨⟨hbi, hbo⟩, ⟨⟩⟩ := Option.ite_none_right_eq_some.mp h
    rw [exec_rdc hv, State.readBank_eq (r := .chr) hbi hbo]
    rfl
  | rdr =>
    obtain ⟨hbo, ⟨⟩⟩ := Option.ite_none_right_eq_some.mp h
    rw [exec_rdr hv, State.readRegion_eq hbo]
  | rdpa =>
    obtain ⟨⟨hlo, hhi, hbi⟩, ⟨⟩⟩ := Option.ite_none_right_eq_some.mp h
    rw [exec_rdpa hv, State.readBankAt_eq (r := .prg) ((addressLegal_iff s.a).mpr ⟨hlo, hhi⟩) hbi]
    rfl
  | rdca =>
    obtain ⟨⟨hlo, hhi, hbi⟩, ⟨⟩⟩ := Option.ite_none_right_eq_some.mp h
    rw [exec_rdca hv, State.readBankAt_eq (r := .chr) ((addressLegal_iff s.a).mpr ⟨hlo, hhi⟩) hbi]
    rfl
  | nop | rst | enc6 | enc8 | dec | hdr | scans | scann | wr | rd => cases h

/-- A body that answers no I/O failure does not end its command so. -/
theorem not_ended_of_settle {s : State} {r : Except CmdError State} (h : r ≠ .error .ioFailure) :
    ¬ (s.settle r).nextDraw.EndedInIoFailure := by
  intro hended
  rcases s.settle_cases r with ⟨t, -, hs⟩ | ⟨e, he, hs⟩ <;> rw [hs] at hended
  · exact State.not_ended_of_err rfl hended
  · obtain rfl := State.raise_endedInIoFailure (s := s) hended
    exact h he

/-- A bank read with an operand out of range reads nothing. -/
theorem State.readBank_ne_ioFailure {s : State} {r : Region}
    (h : ¬ (s.bi.toNat < s.bankCount r ∧ s.bo.toNat < bankSize r)) : s.readBank r ≠ .error .ioFailure := by
  rcases s.readBank_cases r with ⟨-, hr⟩ | ⟨-, -, hr⟩ | ⟨hbi, hbo, -⟩
  · rw [hr]; nofun
  · rw [hr]; nofun
  · exact absurd ⟨hbi, hbo⟩ h

theorem State.readBankAt_ne_ioFailure {s : State} {r : Region}
    (h : ¬ (0x8000 ≤ s.a.toNat ∧ s.a.toNat ≤ 0xFFFF ∧ s.bi.toNat < s.bankCount r)) :
    s.readBankAt r ≠ .error .ioFailure := by
  rcases s.readBankAt_cases r with ⟨-, hr⟩ | ⟨-, -, hr⟩ | ⟨ha, hbi, -⟩
  · rw [hr]; nofun
  · rw [hr]; nofun
  · obtain ⟨hlo, hhi⟩ := (addressLegal_iff s.a).mp ha
    exact absurd ⟨hlo, hhi, hbi⟩ h

/-- A command that reads no payload byte does not end in an I/O failure. -/
theorem exec_of_no_payload {s : State} {i : Instr} (hv : s.hv = true) (hi : i = .hdr ∨ parsesHeaderFirst i = true)
    (h : s.payloadOffset i = none) : ∃ t, exec i s = .next t ∧ ¬ t.EndedInIoFailure := by
  cases i with
  | hdr => exact ⟨_, exec_hdr_of_ok (State.ensureHeader_parsed hv), State.not_ended_of_err rfl⟩
  | rdp =>
    refine ⟨_, exec_rdp hv, not_ended_of_settle (State.readBank_ne_ioFailure fun hin => ?_)⟩
    exact nomatch (if_pos hin).symm.trans h
  | rdc =>
    refine ⟨_, exec_rdc hv, not_ended_of_settle (State.readBank_ne_ioFailure fun hin => ?_)⟩
    exact nomatch (if_pos hin).symm.trans h
  | rdr =>
    refine ⟨_, exec_rdr hv, not_ended_of_settle ?_⟩
    by_cases hbo : s.bo.toNat < s.prgLen
    · exact nomatch (if_pos hbo).symm.trans h
    · rw [State.readRegion_end (Nat.le_of_not_lt hbo)]
      nofun
  | rdpa =>
    refine ⟨_, exec_rdpa hv, not_ended_of_settle (State.readBankAt_ne_ioFailure fun hin => ?_)⟩
    exact nomatch (if_pos hin).symm.trans h
  | rdca =>
    refine ⟨_, exec_rdca hv, not_ended_of_settle (State.readBankAt_ne_ioFailure fun hin => ?_)⟩
    exact nomatch (if_pos hin).symm.trans h
  | scans =>
    refine ⟨_, exec_scans hv, not_ended_of_settle ?_⟩
    rcases s.startScan_cases with ⟨-, hr⟩ | ⟨-, _, -, hr⟩ | ⟨-, -, hr⟩ <;> rw [hr] <;> nofun
  | nop | rst | enc6 | enc8 | dec | scann | wr | rd => simp [parsesHeaderFirst] at hi

/-- With the header parsed, a command ends in an I/O failure exactly when its payload read draws one. -/
theorem ioFailure_parsed {s : State} {i : Instr} (hv : s.hv = true) (hi : i = .hdr ∨ parsesHeaderFirst i = true) :
    ∃ t : State, exec i s = .next t ∧
      (t.EndedInIoFailure ↔ ∃ off, s.payloadOffset i = some off ∧ s.ioFails off = true) ∧
      (t.EndedInIoFailure → t = s.ioFailed) ∧
      (∀ off, s.payloadOffset i = some off → s.ioFails off = false → t.err = 0) := by
  cases hoff : s.payloadOffset i with
  | none =>
    obtain ⟨t, ht, hnot⟩ := exec_of_no_payload hv hi hoff
    exact ⟨t, ht, by simp [hnot], fun h => absurd h hnot, nofun⟩
  | some off =>
    refine ⟨_, exec_of_payloadOffset hv hoff, ?_⟩
    rcases s.readPayload_cases off with ⟨hf, hr⟩ | ⟨hf, hr⟩
    · have hended := s.ioFailed_ended
      rw [hr, State.settle_error, State.raise_ioFailure]
      exact ⟨by simp [hended, hf], fun _ => rfl, fun x hx hxf => by cases hx; rw [hf] at hxf; cases hxf⟩
    · have hnot : ¬ (s.settle (s.readPayload off)).nextDraw.EndedInIoFailure :=
        not_ended_of_settle (by rw [hr]; nofun)
      refine ⟨by simp [hnot, hf], fun h => absurd h hnot, fun _ _ _ => ?_⟩
      rw [hr]
      rfl

/-! ### Without a header -/

/-- On an image of 16 bytes or more the parse ends in an I/O failure exactly when one of its three reads draws one. -/
theorem ioFailure_hdr {s : State} (hsnap : s.SnapInv) (hv : s.hv = false) (hlen : 16 ≤ s.img.len.toNat) :
    ∃ t : State, exec .hdr s = .next t ∧
      (t.EndedInIoFailure ↔ s.ioFails 4 = true ∨ s.ioFails 5 = true ∨ s.ioFails 6 = true) ∧
      (t.EndedInIoFailure →
        t = s.ioFailed ∧ ∀ i, parsesHeaderFirst i = true → exec i s = .next s.ioFailed) := by
  rcases State.ensureHeader_long hsnap hv hlen with ⟨hf, hp⟩ | ⟨⟨h4, h5, h6⟩, b4, b5, b6, -, -, -, hp⟩
  · have hall (i : Instr) (hi : i = .hdr ∨ parsesHeaderFirst i = true) : exec i s = .next s.ioFailed := by
      obtain ⟨body, hexec⟩ := exec_eq_withHeader hi
      rw [hexec, State.withHeader_of_error hp, State.raise_ioFailure]
    exact ⟨_, hall .hdr (.inl rfl), iff_of_true s.ioFailed_ended hf, fun _ => ⟨rfl, fun i hi => hall i (.inr hi)⟩⟩
  · have hnot : ¬ State.EndedInIoFailure (s.storeHeader b4 b5 b6).succeed.nextDraw := State.not_ended_of_err rfl
    exact ⟨_, exec_hdr_of_ok hp, by simp [hnot, h4, h5, h6], fun h => absurd h hnot⟩

/-! ### SCANN (R79, R163; the order of its reads is log 9) -/

/-- A comparison that fails has read the byte whose draw fails, after the bytes before it. -/
theorem State.bytesAt_error_at {s : State} {pattern : List Byte} {off : Nat} {e : CmdError}
    (h : s.bytesAt pattern off = .error e) :
    ∃ k, k < pattern.length ∧ s.ioFails (off + k) = true ∧ ∀ m, m < k → s.imgByte (off + m) = pattern[m]? := by
  induction pattern generalizing off with
  | nil => cases h
  | cons b rest ih =>
    unfold State.bytesAt at h
    rcases s.memRead_cases off with ⟨hf, -⟩ | ⟨-, hr⟩
    · exact ⟨0, by simp, hf, by intro m hm; omega⟩
    · rw [hr] at h
      by_cases hb : s.imgByte off = some b
      · obtain ⟨k, hk, hf, hbefore⟩ := ih (by simpa [hb] using h)
        refine ⟨k + 1, by simpa using hk, by rwa [Nat.add_comm k 1, ← Nat.add_assoc], fun m hm => ?_⟩
        cases m with
        | zero => exact hb
        | succ m =>
          rw [Nat.add_comm m 1, ← Nat.add_assoc, Nat.add_comm 1 m]
          exact hbefore m (by omega)
      · simp [hb] at h

/-- A comparison that answers has read every byte up to the first difference, and none of these draws failed. -/
theorem State.ioFails_of_bytesAt_ok {s : State} {pattern : List Byte} {off k : Nat} {r : Bool}
    (h : s.bytesAt pattern off = .ok r) (hk : k < pattern.length)
    (hbefore : ∀ m, m < k → s.imgByte (off + m) = pattern[m]?) : s.ioFails (off + k) = false := by
  induction pattern generalizing off k with
  | nil => simp at hk
  | cons b rest ih =>
    unfold State.bytesAt at h
    rcases s.memRead_cases off with ⟨-, hr⟩ | ⟨hf, hr⟩ <;> rw [hr] at h
    · cases h
    cases k with
    | zero => exact hf
    | succ k =>
      have hb : s.imgByte off = some b := hbefore 0 (by omega)
      have hrest := ih (off := off + 1) (k := k) (by simpa [hb] using h) (by simpa using hk) fun m hm => by
        rw [Nat.add_assoc, Nat.add_comm 1 m]
        exact hbefore (m + 1) (by omega)
      rwa [Nat.add_assoc, Nat.add_comm 1 k] at hrest

/-- A search that fails has failed at a location after comparing all before it without a hit. -/
theorem State.firstHit_error_at {s : State} {pattern : List Byte} {n h : Nat} {e : CmdError}
    (hh : s.firstHit pattern n h = .error e) :
    ∃ x, h ≤ x ∧ x < h + n ∧ s.bytesAt pattern (s.poff.toNat + x) = .error e ∧
      ∀ y, h ≤ y → y < x → s.bytesAt pattern (s.poff.toNat + y) = .ok false := by
  induction n generalizing h with
  | zero => cases hh
  | succ n ih =>
    unfold State.firstHit at hh
    cases hb : s.bytesAt pattern (s.poff.toNat + h) with
    | error e' =>
      obtain rfl : e' = e := by simpa [hb] using hh
      exact ⟨h, Nat.le_refl h, by omega, hb, by intro y h1 h2; omega⟩
    | ok r =>
      cases r with
      | true => simp [hb] at hh
      | false =>
        obtain ⟨x, hx, hxn, hxe, hbefore⟩ := ih (by simpa [hb] using hh)
        refine ⟨x, by omega, by omega, hxe, fun y hy hyx => ?_⟩
        by_cases hyh : y = h
        · exact hyh ▸ hb
        · exact hbefore y (by omega) hyx

/-- A loop that fails has failed in the search of a pattern after searching all before it without a hit. -/
theorem State.seekHit_error_at {s : State} {n j start : Nat} {e : CmdError} (hh : s.seekHit n j start = .error e) :
    ∃ i, j ≤ i ∧ i < j + n ∧ s.nextHit i (if i = j then start else 0) = .error e ∧
      ∀ m, j ≤ m → m < i → s.nextHit m (if m = j then start else 0) = .ok none := by
  induction n generalizing j start with
  | zero => cases hh
  | succ n ih =>
    unfold State.seekHit at hh
    cases hn : s.nextHit j start with
    | error e' =>
      obtain rfl : e' = e := by simpa [hn] using hh
      exact ⟨j, Nat.le_refl j, by omega, by simpa using hn, by intro m h1 h2; omega⟩
    | ok r =>
      cases r with
      | some h => simp [hn] at hh
      | none =>
        obtain ⟨i, hi, hin, hie, hbefore⟩ := ih (by simpa [hn] using hh)
        simp only [ite_self] at hie hbefore
        refine ⟨i, by omega, by omega, by rwa [if_neg (by omega)], fun m hm hmi => ?_⟩
        by_cases hmj : m = j
        · simpa [hmj] using hn
        · rw [if_neg hmj]
          exact hbefore m (by omega) hmi

section
variable {s : State} (hsnap : s.SnapInv) (hinv : s.ScanInv) (hs : s.ss = .active)
include hsnap hinv hs

/-- A SCANN that fails has examined a byte whose draw fails. -/
theorem State.examines_of_scanNext_error {e : CmdError} (h : s.scanNext = .error e) :
    ∃ j l k, s.Examines j l k ∧ s.ioFails (s.poff.toNat + l + k) = true := by
  obtain ⟨hlegal, hpos, -⟩ := hinv
  obtain ⟨-, hnp, hlen⟩ := hlegal (by simp [hs])
  obtain ⟨hsj, -⟩ := hpos hs
  have hlen8 (i : Nat) (hi : i < s.np.toNat) := ((Slot.lengthLegal_iff _).mp (hlen i hi)).2
  have hactive : s.activeSlots = s.np.toNat := Nat.min_eq_left hnp
  have hseek : ∃ e, s.seekHit (s.activeSlots - s.sj.toNat) s.sj.toNat s.sp.toNat = .error e := by
    rcases hr : s.seekHit (s.activeSlots - s.sj.toNat) s.sj.toNat s.sp.toNat with e | (⟨j, l⟩ | j)
    · exact ⟨e, rfl⟩
    · simp [State.scanNext, hs, hr] at h
    · simp [State.scanNext, hs, hr] at h
  obtain ⟨e, hseek⟩ := hseek
  obtain ⟨j, hj, hjnp, hnext, hskipped⟩ := State.seekHit_error_at hseek
  have hL := Slot.bytes_length (hlen8 j (by omega))
  obtain ⟨l, hl, hln, hbytes, hbefore⟩ := State.firstHit_error_at hnext
  obtain ⟨k, hk, hf, hprefix⟩ := State.bytesAt_error_at hbytes
  refine ⟨j, l, k, ⟨hj, by omega, hl, by omega, by omega, fun m hm => ?_, fun x hx hxl => ?_, fun i x hi hij hx => ?_⟩, hf⟩
  · rw [← State.imgByte_eq hsnap, hprefix m hm, List.getElem?_eq_getElem (by omega), Slot.bytes_getElem]
  · exact (State.bytesAt_eq_occurs hsnap (hlen8 j (by omega)) (by omega) (hbefore x hx hxl)).symm
  · exact State.nextHit_ok hsnap (hlen8 i (by omega)) (hskipped i hi hij) x hx

/-- A SCANN that examines a byte whose draw fails fails: a comparison there cannot have answered. -/
theorem State.scanNext_error_of_examines {j l k : Nat} (hex : s.Examines j l k)
    (hf : s.ioFails (s.poff.toNat + l + k) = true) : s.scanNext = .error .ioFailure := by
  obtain ⟨hj, hjnp, hl, hin, hk, hprefix, hlow, hbefore⟩ := hex
  obtain ⟨-, -, hlen⟩ := hinv.1 (by simp [hs])
  have hL := Slot.bytes_length ((Slot.lengthLegal_iff _).mp (hlen j hjnp)).2
  have hno (r : Bool) : s.bytesAt (s.slotAt j).bytes (s.poff.toNat + l) ≠ .ok r := by
    intro hr
    have hdraw := State.ioFails_of_bytesAt_ok (k := k) hr (by omega) fun m hm => by
      rw [State.imgByte_eq hsnap, hprefix m hm, List.getElem?_eq_getElem (by omega), Slot.bytes_getElem]
    rw [hf] at hdraw
    cases hdraw
  have hstart : s.searchStart j = if j = s.sj.toNat then s.sp.toNat else 0 := rfl
  have hnone : s.nextHit j (s.searchStart j) ≠ .ok none := fun hr =>
    hno false (State.firstHit_ok hr l hl (by omega))
  have hsome (x : Nat) : s.nextHit j (s.searchStart j) ≠ .ok (some x) := by
    intro hr
    obtain ⟨-, -, hhit, hmissed⟩ := State.firstHit_ok hr
    obtain ⟨hx, hocc, -⟩ := State.nextHit_ok hsnap ((Slot.lengthLegal_iff _).mp (hlen j hjnp)).2 hr
    rcases Nat.lt_trichotomy l x with hlx | rfl | hxl
    · exact hno false (hmissed l hl hlx)
    · exact hno true hhit
    · rw [hlow x hx hxl] at hocc
      cases hocc
  rcases s.scanNext_cases with ⟨h, -⟩ | ⟨h, -⟩ | ⟨-, ⟨hio, -⟩ | ⟨i, x, hseek, -⟩ | ⟨i, hseek, -⟩⟩
  · rw [hs] at h; cases h
  · rw [hs] at h; cases h
  · exact hio
  · obtain ⟨hi, hinp, hhit, hskipped⟩ := State.seekHit_ok hseek
    rcases Nat.lt_trichotomy i j with hij | rfl | hji
    · have hlen8 := ((Slot.lengthLegal_iff _).mp (hlen i (by omega))).2
      obtain ⟨hx, hocc, -⟩ := State.nextHit_ok hsnap hlen8 hhit
      rw [hbefore i x hi hij hx] at hocc
      cases hocc
    · exact absurd hhit (hsome x)
    · exact absurd (hskipped j hj hji) hnone
  · obtain ⟨hi, hskipped⟩ := State.seekHit_ok hseek
    have hactive : s.activeSlots = s.np.toNat := Nat.min_eq_left (hinv.1 (by simp [hs])).2.1
    exact absurd (hskipped j hj (by omega)) hnone

/-- SCANN in an active scan ends in an I/O failure exactly when a byte it examines draws one. -/
theorem ioFailure_scann :
    ∃ t : State, exec .scann s = .next t ∧
      (t.EndedInIoFailure ↔ ∃ j h k, s.Examines j h k ∧ s.ioFails (s.poff.toNat + h + k) = true) ∧
      (t.EndedInIoFailure → t = s.ioFailed) := by
  refine ⟨_, exec_scann s, ?_⟩
  by_cases hio : s.scanNext = .error .ioFailure
  · rw [hio, State.settle_error, State.raise_ioFailure]
    exact ⟨iff_of_true s.ioFailed_ended (State.examines_of_scanNext_error hsnap hinv hs hio), fun _ => rfl⟩
  · have hnot := not_ended_of_settle (s := s) hio
    refine ⟨iff_of_false hnot ?_, fun h => absurd h hnot⟩
    rintro ⟨j, l, k, hex, hf⟩
    exact hio (State.scanNext_error_of_examines hsnap hinv hs hex hf)
end

/-! ### Without a failing draw (R61) -/

/-- Where no draw fails, no command ends in an I/O failure. -/
theorem no_ioFailure {s t : State} {i : Instr} {op : Byte} (hio : s.NoIoFailure) (hop : opcode? i = some op)
    (h : exec i s = .next t) : ¬ t.EndedInIoFailure := by
  by_cases hrst : i = .rst
  · subst hrst
    cases h
    exact State.not_ended_of_err rfl
  rcases exec_command_ends h hop hrst with ⟨u, e, n, -, rfl, hdraw⟩ | ⟨herr, -, -⟩
  · intro hended
    obtain ⟨x, hx⟩ := hdraw (State.raise_endedInIoFailure (s := u) hended)
    rw [hio x] at hx
    cases hx
  · exact State.not_ended_of_err herr

/-- Settles O40: with the header parsed, without it, in an active scan, and where no draw fails. -/
theorem ioFailureExactlyWhenDrawn : Obligations.IoFailureExactlyWhenDrawn := by
  refine ⟨fun s i hv hi => ioFailure_parsed hv hi, fun s hsnap hv hlen => ioFailure_hdr hsnap hv hlen,
    fun s hsnap hinv hs => ioFailure_scann hsnap hinv hs, fun s t i hdraws hop h => ?_⟩
  obtain ⟨op, hop⟩ := Option.ne_none_iff_exists'.mp hop
  exact no_ioFailure (hdraws.elim State.noIoFailure_of_default id) hop h

end Sys2Proof.Machine

/-! PROOFS. The host sequences over the codec (spec/44_sequences.md): DECODE, REENCODE, GENRANDOM (R191 to R194). -/

namespace Sys2Proof.Machine

open Sys2Proof

/-! ### The bus value -/

/-- The state with a value on the bus (log 2). -/
def State.answer (s : State) (w : Word) : State := { s with reply := some w }

@[simp] theorem State.readReg_answer (s : State) (w : Word) (r : Reg) : (s.answer w).readReg r = s.readReg r := by
  cases r <;> rfl

@[simp] theorem State.answer_answer (s : State) (w w' : Word) : (s.answer w).answer w' = s.answer w' := rfl

/-! ### Host programs, transaction by transaction -/

/-- A program whose first part answers goes on from there. -/
theorem bind_of_ok {α β : Type} {x : HostProgram α} {f : α → HostProgram β} {s t : State} {a : α}
    (h : x s = .ok (a, t)) : (x >>= f) s = f a t := by
  simp only [bind, StateT.bind, h, Except.bind]

/-- A program whose first part fails fails alike. -/
theorem bind_of_error {α β : Type} {x : HostProgram α} {f : α → HostProgram β} {s : State} {e : HostFailure}
    (h : x s = .error e) : (x >>= f) s = .error e := by
  simp only [bind, StateT.bind, h, Except.bind]

/-- A program that answers has answered in its first part. -/
theorem ok_of_bind_ok {α β : Type} {x : HostProgram α} {f : α → HostProgram β} {s u : State} {b : β}
    (h : (x >>= f) s = .ok (b, u)) : ∃ a t, x s = .ok (a, t) ∧ f a t = .ok (b, u) := by
  cases hx : x s with
  | error e => cases (bind_of_error hx).symm.trans h
  | ok at' => exact ⟨at'.1, at'.2, rfl, (bind_of_ok hx).symm.trans h⟩

theorem issue_of_next {i : Instr} {s t : State} (h : exec i s = .next t) : issue i s = .ok ((), t) := by
  simp [issue, h]

theorem wrReg_eq {r : Reg} (hr : r ≠ .cmd) (data : Word) (s : State) :
    wrReg r data s = .ok ((), s.writeReg r data) :=
  issue_of_next (exec_wr_mapped (regOfNumber_regNumber r) hr data s)

theorem rdReg_eq (r : Reg) (s : State) : rdReg r s = .ok (s.readReg r, s.answer (s.readReg r)) :=
  bind_of_ok (issue_of_next (exec_rd_mapped (regOfNumber_regNumber r) s))

/-- The write that issues a command runs it (R30). -/
theorem wrReg_cmd {i : Instr} {op : Byte} (hop : opcode? i = some op) {s t : State} (h : exec i s = .next t) :
    wrReg .cmd (((opcode? i).getD 0).setWidth 32) s = .ok ((), t) := by
  have hdata : (((opcode? i).getD 0).setWidth 32).setWidth 8 = op := by
    rw [hop, Option.getD_some]
    exact BitVec.setWidth_setWidth_of_le op (by decide)
  exact issue_of_next (((writeToCmdRunsTheCommand s).1 i op _ hop hdata).trans h)

/-- A command that ends without an error goes on, with the 0 of `ERR` on the bus (R190 a). -/
theorem runCmd_of_ok {i : Instr} {op : Byte} (hop : opcode? i = some op) {s t : State} (h : exec i s = .next t)
    (herr : t.err = 0) : runCmd i s = .ok ((), t.answer 0) := by
  have hread : t.readReg .err = 0 := by rw [State.readReg, herr]; rfl
  rw [runCmd, bind_of_ok (wrReg_cmd hop h), bind_of_ok (rdReg_eq .err t), hread]
  rfl

/-- A command that ends in an error ends the sequence with its `ERR` and `EINFO` (R190 a). -/
theorem runCmd_of_error {i : Instr} {op : Byte} (hop : opcode? i = some op) {s t : State} (h : exec i s = .next t)
    (herr : t.err ≠ 0) : runCmd i s = .error (.typed (t.err.setWidth 32) t.einfo) := by
  have hread : t.readReg .err ≠ 0 := by
    intro h0
    have hzero := congrArg BitVec.toNat h0
    rw [State.readReg, BitVec.toNat_setWidth_of_le (by decide)] at hzero
    exact herr (BitVec.eq_of_toNat_eq hzero)
  rw [runCmd, bind_of_ok (wrReg_cmd hop h), bind_of_ok (rdReg_eq .err t), if_neg hread,
    bind_of_ok (rdReg_eq .einfo _)]
  rfl

/-- A command of a sequence that goes on has ended without an error. -/
theorem runCmd_ok {i : Instr} {op : Byte} (hop : opcode? i = some op) {s u : State} (h : runCmd i s = .ok ((), u)) :
    ∃ t, exec i s = .next t ∧ t.err = 0 ∧ u = t.answer 0 := by
  obtain ⟨t, ht⟩ := exec_next i s
  by_cases herr : t.err = 0
  · cases (runCmd_of_ok hop ht herr).symm.trans h
    exact ⟨t, ht, herr, rfl⟩
  · cases (runCmd_of_error hop ht herr).symm.trans h

/-! ### SETCODE and GETCODE (R191) -/

/-- A byte written to a register through the bus. -/
@[simp] theorem byte_setWidth_setWidth (b : Byte) : (b.setWidth 32).setWidth 8 = b :=
  BitVec.setWidth_setWidth_of_le b (by decide)

/-- A write to a cell by its number. -/
theorem set_ofNat_eq_setIfInBounds (k : Vector Byte 8) {i : Nat} (hi : i < 8) (ch : Byte) :
    k.set (Fin.ofNat 8 i) ch = k.setIfInBounds i ch := by
  have hval : (Fin.ofNat 8 i).val = i := Nat.mod_eq_of_lt hi
  ext m hm
  simp only [Vector.getElem_set, Vector.getElem_setIfInBounds, hval]

/-- The writes of SETCODE store what fits the cells. -/
theorem writeCells_eq (code : Code) (i : Nat) (s : State) :
    writeCells code i s = .ok ((), { s with k := storeChars (code.take (8 - i)) i s.k }) := by
  induction code generalizing i s with
  | nil => rw [List.take_nil]; rfl
  | cons ch rest ih =>
    by_cases hi : i < 8
    · rw [writeCells, if_pos hi, bind_of_ok (wrReg_eq (r := .k (Fin.ofNat 8 i)) (by simp) _ s), ih,
        show 8 - i = 8 - (i + 1) + 1 by omega, List.take_succ_cons, storeChars, ← set_ofNat_eq_setIfInBounds _ hi]
      simp [State.writeReg]
    · rw [writeCells, if_neg hi, show 8 - i = 0 by omega]
      rfl

/-- The state after SETCODE. -/
def State.withCode (s : State) (code : Code) : State :=
  { s with k := storeChars (code.take 8) 0 s.k, kl := BitVec.ofNat 4 (min code.length 15) }

theorem setCode_eq (code : Code) (s : State) : setCode code s = .ok ((), s.withCode code) := by
  have hkl : (BitVec.ofNat 32 (min code.length 15)).setWidth 4 = BitVec.ofNat 4 (min code.length 15) :=
    BitVec.setWidth_ofNat_of_le (by decide) _
  rw [setCode, bind_of_ok (writeCells_eq code 0 s), wrReg_eq (by simp), State.writeReg, hkl]
  rfl

theorem State.withCode_kl_toNat (s : State) (code : Code) : (s.withCode code).kl.toNat = min code.length 15 := by
  rw [State.withCode, BitVec.toNat_ofNat, Nat.mod_eq_of_lt (by omega)]

/-- The reads of GETCODE give the cells, and leave a value on the bus. -/
theorem readCells_eq (n i : Nat) (s : State) (h : i + n ≤ 8) :
    ∃ t, readCells n i s = .ok ((s.k.toList.drop i).take n, t) ∧ (t = s ∨ ∃ w, t = s.answer w) := by
  induction n generalizing i s with
  | zero => exact ⟨s, by rw [List.take_zero]; rfl, .inl rfl⟩
  | succ n ih =>
    obtain ⟨t, ht, hst⟩ := ih (i + 1) (s.answer (s.readReg (.k (Fin.ofNat 8 i)))) (by omega)
    have hval : (Fin.ofNat 8 i).val = i := Nat.mod_eq_of_lt (by omega)
    have hcell : (s.readReg (.k (Fin.ofNat 8 i))).setWidth 8 = s.k[i] := by
      rw [State.readReg, byte_setWidth_setWidth, Fin.getElem_fin]
      simp only [hval]
    have hi : i < s.k.toList.length := by
      rw [Vector.length_toList]
      omega
    refine ⟨t, ?_, .inr ?_⟩
    · rw [readCells, bind_of_ok (rdReg_eq _ s), bind_of_ok ht, hcell, List.drop_eq_getElem_cons hi,
        List.take_succ_cons, Vector.getElem_toList]
      rfl
    · rcases hst with rfl | ⟨w, rfl⟩
      · exact ⟨_, rfl⟩
      · exact ⟨w, rfl⟩

theorem getCode_eq (s : State) :
    ∃ w, getCode s = .ok (s.k.toList.take (min s.kl.toNat 8), s.answer w) := by
  have hkl : (s.readReg .kl).toNat = s.kl.toNat := BitVec.toNat_setWidth_of_le (by decide)
  obtain ⟨t, ht, hst⟩ := readCells_eq (min s.kl.toNat 8) 0 (s.answer (s.readReg .kl)) (by omega)
  rw [getCode, bind_of_ok (rdReg_eq .kl s), hkl, ht]
  rcases hst with rfl | ⟨w, rfl⟩
  · exact ⟨_, rfl⟩
  · exact ⟨w, rfl⟩

/-! ### DECODE (R192) -/

/-- `FLAGS` shows `CP` in bit 0 and `EOFF` in bit 2 (R33). -/
theorem State.readReg_flags_getLsbD (s : State) :
    (s.readReg .flags).getLsbD 0 = s.cp ∧ (s.readReg .flags).getLsbD 2 = s.eoff := by
  have hbit (b : Bool) : (bit b)[0] = b := by cases b <;> rfl
  constructor <;> simp only [State.readReg, State.flags, BitVec.getLsbD_setWidth, BitVec.getLsbD_append] <;>
    simp [hbit]

/-- The four reads of DECODE give the patch registers. -/
theorem decodeCode_of_ok {s t : State} {code : Code} {p : Patch} (h : exec .dec (s.withCode code) = .next t)
    (herr : t.err = 0) (ha : t.a = p.address.setWidth 32) (hv : t.v = p.value.setWidth 32)
    (hcp : t.cp = p.compare.isSome) (hc : ∀ c, p.compare = some c → t.c = c.setWidth 32) :
    decodeCode code s = .ok (p, t.answer (t.readReg .c)) := by
  obtain ⟨address, value, compare⟩ := p
  have haddr : (t.readReg .a).setWidth 16 = address := by
    rw [State.readReg, ha]; exact BitVec.setWidth_setWidth_of_le address (by decide)
  have hvalue : (t.readReg .v).setWidth 8 = value := by
    rw [State.readReg, hv]; exact byte_setWidth_setWidth value
  have hcompare : (if (t.readReg .flags).getLsbD 0 then some ((t.readReg .c).setWidth 8) else none) = compare := by
    rw [t.readReg_flags_getLsbD.1, hcp]
    cases compare with
    | none => rfl
    | some c =>
      have hcr : t.readReg .c = c.setWidth 32 := hc c rfl
      simp [hcr]
  refine (bind_of_ok (setCode_eq code s)).trans ((bind_of_ok (runCmd_of_ok rfl h herr)).trans
    ((bind_of_ok (rdReg_eq .a _)).trans ((bind_of_ok (rdReg_eq .v _)).trans ((bind_of_ok (rdReg_eq .flags _)).trans
      ((bind_of_ok (rdReg_eq .c _)).trans ?_)))))
  simp only [State.readReg_answer, State.answer_answer, haddr, hvalue, hcompare]
  rfl

/-- The code of a legal patch in the cells decodes to the patch. -/
theorem exec_dec_withCode {p : Patch} (hp : 0x8000 ≤ p.address.toNat) (s : State) :
    exec .dec (s.withCode (codeOfPatch p)) = .next ((s.withCode (codeOfPatch p)).storePatch p).succeed := by
  have hlen := codeOfPatch_length_le p
  have hkl : (s.withCode (codeOfPatch p)).kl.toNat = (codeOfPatch p).length := by
    rw [State.withCode_kl_toNat]
    omega
  refine exec_dec_of_decodeCells (decodeCells_of_code hp hkl ?_)
  rw [hkl, State.withCode, List.take_of_length_le hlen]
  exact take_storeChars rfl hlen s.k

/-- Settles O56: SETCODE puts the code into the cells, DEC stores the patch, and the reads return it. -/
theorem decodeSequenceReturnsThePatch : Obligations.DecodeSequenceReturnsThePatch := by
  intro s p hp
  refine ⟨_, decodeCode_of_ok (exec_dec_withCode hp s) rfl rfl rfl rfl fun c hc => ?_⟩
  simp [hc]

/-- Settles O57: the capped length is neither 6 nor 8, and DEC's error ends the sequence. -/
theorem decodeSequenceFailsOnLength : Obligations.DecodeSequenceFailsOnLength := by
  intro s code h6 h8
  have hkl := s.withCode_kl_toNat code
  have hne (n : BitVec 4) (hn : n.toNat < 15) (hcode : code.length ≠ n.toNat) : (s.withCode code).kl ≠ n := by
    intro h
    rw [h] at hkl
    omega
  have hdec := exec_dec_of_error (s := s.withCode code)
    (decodeCells_badLength (hne 6 (by decide) h6) (hne 8 (by decide) h8))
  rw [State.raise_badLength, hkl] at hdec
  rw [decodeCode, bind_of_ok (setCode_eq code s), bind_of_error (runCmd_of_error rfl hdec (by simp))]
  rfl

/-! ### REENCODE and GENRANDOM (R193, R194) -/

/-- GETCODE after an encode gives the code. -/
theorem getCode_storeCode (s : State) (p : Patch) :
    ∃ w, getCode ((s.storeCode (codeOfPatch p)).succeed.answer 0) =
      .ok (codeOfPatch p, (s.storeCode (codeOfPatch p)).succeed.answer w) := by
  have hlen := codeOfPatch_length_le p
  have hkl : (BitVec.ofNat 4 (codeOfPatch p).length).toNat = (codeOfPatch p).length := by
    rw [BitVec.toNat_ofNat, Nat.mod_eq_of_lt (by omega)]
  obtain ⟨w, hw⟩ := getCode_eq ((s.storeCode (codeOfPatch p)).succeed.answer 0)
  refine ⟨w, hw.trans ?_⟩
  have hcells : (storeChars (codeOfPatch p) 0 s.k).toList.take (min (codeOfPatch p).length 8) = codeOfPatch p := by
    rw [Nat.min_eq_left hlen]
    exact take_storeChars rfl hlen s.k
  rw [← hkl] at hcells
  exact congrArg (fun code => Except.ok (code, (s.storeCode (codeOfPatch p)).succeed.answer w)) hcells

/-- The end of a sequence that encodes: with operands that are a legal patch's, the patch's code; what may differ
afterwards are the code cells, `C`, the error registers and the bus value. -/
theorem encodeWith_eq {s : State} {p : Patch} (hp : 0x8000 ≤ p.address.toNat) (ha : s.a = p.address.setWidth 32)
    (hv : s.v = p.value.setWidth 32) :
    ∃ t : State, encodeWith (p.compare.map (·.setWidth 32)) s = .ok (codeOfPatch p, t) ∧
      t = { s with k := t.k, kl := t.kl, c := t.c, err := 0, einfo := 0, reply := t.reply } := by
  cases hcompare : p.compare with
  | none =>
    have hsome : p.compare.isSome = false := by simp [hcompare]
    have henc : exec .enc6 s = .next (s.storeCode (codeOfPatch p)).succeed :=
      exec_enc6_of_operandPatch (hsome ▸ State.operandPatch_of_patch hp ha hv (by simp [hcompare]))
    obtain ⟨w, hw⟩ := getCode_storeCode s p
    exact ⟨_, (bind_of_ok (runCmd_of_ok rfl henc rfl)).trans hw, rfl⟩
  | some c =>
    have hsome : p.compare.isSome = true := by simp [hcompare]
    have henc : exec .enc8 (s.writeReg .c (c.setWidth 32)) =
        .next ((s.writeReg .c (c.setWidth 32)).storeCode (codeOfPatch p)).succeed :=
      exec_enc8_of_operandPatch
        (hsome ▸ State.operandPatch_of_patch (s := s.writeReg .c (c.setWidth 32)) hp ha hv fun c' hc' => by
          cases hcompare.symm.trans hc'
          rfl)
    obtain ⟨w, hw⟩ := getCode_storeCode (s.writeReg .c (c.setWidth 32)) p
    exact ⟨_, (bind_of_ok (wrReg_eq (by simp) _ s)).trans ((bind_of_ok (runCmd_of_ok rfl henc rfl)).trans hw), rfl⟩

/-- Settles O58: DEC stores the old patch, whose address stays, and the encode is that of the new one. -/
theorem reencodeSequenceRebuildsThePatch : Obligations.ReencodeSequenceRebuildsThePatch := by
  intro s p v c hp
  let u := (((s.withCode (codeOfPatch p)).storePatch p).succeed.answer 0).writeReg .v (v.setWidth 32)
  obtain ⟨t, ht, -⟩ := encodeWith_eq (s := u) (p := ⟨p.address, v, c⟩) hp rfl rfl
  exact ⟨t, (bind_of_ok (setCode_eq _ s)).trans ((bind_of_ok (runCmd_of_ok rfl (exec_dec_withCode hp s) rfl)).trans
    ((bind_of_ok (wrReg_eq (by simp) _ _)).trans ht))⟩

/-- Settles O59: the writes put the drawn patch into the operand registers, and the encode is its own. -/
theorem genRandomSequenceGivesTheCode : Obligations.GenRandomSequenceGivesTheCode := by
  intro s drawn hp
  let u := (s.writeReg .a (drawn.address.setWidth 32)).writeReg .v (drawn.value.setWidth 32)
  obtain ⟨t, ht, -⟩ := encodeWith_eq (s := u) (p := drawn) hp rfl rfl
  exact ⟨t, (bind_of_ok (wrReg_eq (by simp) _ s)).trans ((bind_of_ok (wrReg_eq (by simp) _ _)).trans ht)⟩

end Sys2Proof.Machine

/-! PROOFS. The host sequence SAFER (R197): it returns exactly the codes of the bytes that stand at the address's
offset in the banks of the image. -/

namespace Sys2Proof.Machine

open Sys2Proof

/-! ### Sets of codes (R190 b) -/

theorem mem_addCode {x c : Code} {set : List Code} : x ∈ addCode c set ↔ x = c ∨ x ∈ set := by
  unfold addCode
  split
  · rename_i hmem
    exact ⟨.inr, fun h => h.elim (fun hx => hx ▸ hmem) id⟩
  · rw [List.mem_append, List.mem_singleton, or_comm]

theorem nodup_addCode {c : Code} {set : List Code} (h : set.Nodup) : (addCode c set).Nodup := by
  unfold addCode
  split
  · exact h
  · rename_i hmem
    exact h.append (List.nodup_singleton c) (by simpa using hmem)

theorem length_addCode_le (c : Code) (set : List Code) : (addCode c set).length ≤ set.length + 1 := by
  unfold addCode
  split <;> simp

/-! ### What the banks' loop leaves -/

/-- What SAFER's loops look at and leave: the image, the launch parameters, the header, the address and the value. -/
def State.bankView (s : State) : Image × Params × (Bool × Byte × Byte × Bool × Word) × Word × Word :=
  (s.img, s.params, s.header, s.a, s.v)

/-- The offset in the image that SAFER reads in bank `i`. -/
def State.saferOffset (s : State) (r : Region) (i : Nat) : Nat :=
  s.bankOffset r i (bankOff s.params.bankOff r (s.a.setWidth 16))

theorem State.bankCount_congr {s t : State} (h : t.bankView = s.bankView) (r : Region) :
    t.bankCount r = s.bankCount r := by
  simp only [State.bankView, State.header, Prod.mk.injEq] at h
  cases r <;> simp [State.bankCount, h]

theorem State.saferOffset_congr {s t : State} (h : t.bankView = s.bankView) (r : Region) (i : Nat) :
    t.saferOffset r i = s.saferOffset r i := by
  simp only [State.bankView, State.header, Prod.mk.injEq] at h
  cases r <;> simp [State.saferOffset, State.bankOffset, State.regionStart, h]

/-- Banks lie in rising order, so past the first bank that the image does not reach there is nothing. -/
theorem State.saferOffset_mono (s : State) (r : Region) {i j : Nat} (h : i ≤ j) :
    s.saferOffset r i ≤ s.saferOffset r j := by
  have hmul := Nat.mul_le_mul_left (bankSize r) h
  unfold State.saferOffset State.bankOffset
  omega

/-- An image that ends before an offset ends before every later one (R61). -/
theorem Image.read_eq_none_of_le {i : Image} {off off' : Nat} (h : i.read off = none) (hle : off ≤ off') :
    i.read off' = none := by
  by_cases hlen : off < i.len.toNat
  · rw [Image.read_of_lt hlen] at h
    cases h
  · exact Image.read_of_le (by omega)

/-- A bank's byte stands at SAFER's offset in a bank from `i` on, below `i + n`. -/
def State.BankByte (s : State) (r : Region) (i n : Nat) (b : Byte) : Prop :=
  ∃ j, i ≤ j ∧ j < i + n ∧ s.img.read (s.saferOffset r j) = some b

theorem State.bankByte_congr {s t : State} (h : t.bankView = s.bankView) (r : Region) (i n : Nat) (b : Byte) :
    t.BankByte r i n b ↔ s.BankByte r i n b := by
  have himg : t.img = s.img := congrArg Prod.fst h
  simp only [State.BankByte, himg, State.saferOffset_congr h]

/-- Without a byte in bank `i` there is none in the later ones. -/
theorem State.not_bankByte_of_end {s : State} {r : Region} {i : Nat} (h : s.img.read (s.saferOffset r i) = none)
    (n : Nat) (b : Byte) : ¬ s.BankByte r i n b := by
  rintro ⟨j, hij, -, hb⟩
  rw [Image.read_eq_none_of_le h (s.saferOffset_mono r hij)] at hb
  cases hb

/-- The bytes from bank `i` on are that of bank `i` and those after it. -/
theorem State.bankByte_succ {s : State} {r : Region} {i n : Nat} {c b : Byte}
    (hc : s.img.read (s.saferOffset r i) = some c) : s.BankByte r i (n + 1) b ↔ b = c ∨ s.BankByte r (i + 1) n b := by
  constructor
  · rintro ⟨j, hij, hjn, hb⟩
    rcases Nat.eq_or_lt_of_le hij with rfl | hlt
    · exact .inl (Option.some.inj (hb.symm.trans hc))
    · exact .inr ⟨j, hlt, by omega, hb⟩
  · rintro (rfl | ⟨j, hij, hjn, hb⟩)
    · exact ⟨i, Nat.le_refl i, by omega, hc⟩
    · exact ⟨j, by omega, by omega, hb⟩

/-! ### One bank -/

/-- A command that reads the bank `BI` of a region at the offset of the address in `A`. -/
def ReadsBankAt (read : Instr) (r : Region) : Prop :=
  (∃ op, opcode? read = some op) ∧
    ∀ s : State, s.hv = true → exec read s = .next (s.settle (s.readBankAt r)).nextDraw

theorem rdpa_readsBankAt : ReadsBankAt .rdpa .prg := ⟨⟨_, rfl⟩, fun _ hv => exec_rdpa hv⟩

theorem rdca_readsBankAt : ReadsBankAt .rdca .chr := ⟨⟨_, rfl⟩, fun _ hv => exec_rdca hv⟩

/-- A state in which SAFER's loops run: a header, and the registers of a legal patch. -/
structure State.SaferReady (s : State) (p : Patch) : Prop where
  snapInv : s.SnapInv
  hv : s.hv = true
  legal : 0x8000 ≤ p.address.toNat
  a_eq : s.a = p.address.setWidth 32
  v_eq : s.v = p.value.setWidth 32

theorem State.SaferReady.congr {s t : State} {p : Patch} (h : s.SaferReady p) (hsnap : t.SnapInv)
    (hview : t.bankView = s.bankView) : t.SaferReady p := by
  simp only [State.bankView, State.header, Prod.mk.injEq] at hview
  obtain ⟨-, -, ⟨hv, -⟩, ha, hval⟩ := hview
  exact ⟨hsnap, hv.trans h.hv, h.legal, ha.trans h.a_eq, hval.trans h.v_eq⟩

/-- The state after the read of bank `i`. -/
def State.afterBank (s : State) (r : Region) (i : Nat) : State :=
  ((s.writeReg .bi (BitVec.ofNat 32 i)).delivered (s.saferOffset r i)).answer 0

/-- The read of a bank in range that goes on has delivered its byte, or the end of the image. -/
theorem runCmd_read_ok {read : Instr} {r : Region} (hread : ReadsBankAt read r) {s t : State} {p : Patch}
    (hs : s.SaferReady p) {i : Nat} (hi : i < s.bankCount r)
    (h : runCmd read (s.writeReg .bi (BitVec.ofNat 32 i)) = .ok ((), t)) : t = s.afterBank r i := by
  obtain ⟨⟨op, hop⟩, hexec⟩ := hread
  obtain ⟨u, hu, herr, rfl⟩ := runCmd_ok hop h
  have hcount : s.bankCount r ≤ 255 := by
    cases r
    · have := s.prgn.isLt; simp only [State.bankCount]; omega
    · have := s.chrn.isLt; simp only [State.bankCount]; omega
  have hbi : (BitVec.ofNat 32 i).toNat = i := by rw [BitVec.toNat_ofNat, Nat.mod_eq_of_lt (by omega)]
  have hoff : (s.writeReg .bi (BitVec.ofNat 32 i)).bankOffset r (BitVec.ofNat 32 i).toNat
      (bankOff s.params.bankOff r (s.a.setWidth 16)) = s.saferOffset r i := by
    rw [hbi]
    cases r <;> rfl
  have hin : (s.writeReg .bi (BitVec.ofNat 32 i)).readBankAt r =
      (s.writeReg .bi (BitVec.ofNat 32 i)).readPayload (s.saferOffset r i) := by
    rw [← hoff]
    exact State.readBankAt_eq (hs.a_eq ▸ addressLegal_setWidth hs.legal) (by cases r <;> exact hbi.symm ▸ hi)
  have hcmd := hexec (s.writeReg .bi (BitVec.ofNat 32 i)) hs.hv
  rw [hcmd, hin] at hu
  cases hio : State.ioFails (s.writeReg .bi (BitVec.ofNat 32 i)) (s.saferOffset r i) with
  | true =>
    rw [State.settle_readPayload_ioFails hio] at hu
    obtain rfl := Host.Outcome.next.inj hu
    cases herr
  | false =>
    rw [State.settle_readPayload (s := s.writeReg .bi (BitVec.ofNat 32 i)) hs.snapInv hio] at hu
    obtain rfl := Host.Outcome.next.inj hu
    rfl

theorem State.afterBank_view (s : State) (r : Region) (i : Nat) : (s.afterBank r i).bankView = s.bankView := rfl

theorem State.afterBank_snapInv (s : State) (r : Region) (i : Nat) : (s.afterBank r i).SnapInv := .inr rfl

/-- One turn of the loop (R197): the end of the image ends it; a byte gives a code, with that byte as compare. -/
theorem saferBanks_succ_ok {read : Instr} {r : Region} (hread : ReadsBankAt read r) {s t : State} {p : Patch}
    (hs : s.SaferReady p) {i n : Nat} (hi : i < s.bankCount r) {acc codes : List Code}
    (h : saferBanks read (n + 1) i acc s = .ok (codes, t)) :
    ∃ u : State, u.SnapInv ∧ u.bankView = s.bankView ∧
      ((s.img.read (s.saferOffset r i) = none ∧ codes = acc ∧ t = u) ∨
        ∃ b, s.img.read (s.saferOffset r i) = some b ∧
          saferBanks read n (i + 1) (addCode (codeOfPatch ⟨p.address, p.value, some b⟩) acc) u = .ok (codes, t)) := by
  obtain ⟨⟨⟩, s₁, h₁, h⟩ := ok_of_bind_ok h
  cases (wrReg_eq (r := .bi) (by simp) _ s).symm.trans h₁
  obtain ⟨⟨⟩, s₂, h₂, h⟩ := ok_of_bind_ok h
  obtain rfl := runCmd_read_ok hread hs hi h₂
  obtain ⟨flags, s₃, h₃, h⟩ := ok_of_bind_ok h
  cases (rdReg_eq .flags _).symm.trans h₃
  have heoff : (s.afterBank r i).eoff = (s.img.read (s.saferOffset r i)).isNone := rfl
  rw [(State.readReg_flags_getLsbD _).2, heoff] at h
  cases hb : s.img.read (s.saferOffset r i) with
  | none =>
    rw [hb, Option.isNone_none, if_pos rfl] at h
    cases h
    exact ⟨(s.afterBank r i).answer ((s.afterBank r i).readReg .flags), s.afterBank_snapInv r i, s.afterBank_view r i,
      .inl ⟨rfl, rfl, rfl⟩⟩
  | some b =>
    rw [hb, Option.isNone_some, if_neg (by simp)] at h
    obtain ⟨w, s₄, h₄, h⟩ := ok_of_bind_ok h
    cases (rdReg_eq .d _).symm.trans h₄
    have hd : ((s.afterBank r i).answer ((s.afterBank r i).readReg .flags)).readReg .d = b.setWidth 32 := by
      rw [State.readReg_answer, State.readReg]
      exact congrArg (fun o => ((o : Option Byte).getD s.d).setWidth 32) hb
    obtain ⟨code, s₅, h₅, h⟩ := ok_of_bind_ok h
    rw [hd] at h₅
    obtain ⟨u, hu, hframe⟩ := encodeWith_eq (p := ⟨p.address, p.value, some b⟩) hs.legal
      (s := ((s.afterBank r i).answer ((s.afterBank r i).readReg .flags)).answer (b.setWidth 32)) hs.a_eq hs.v_eq
    obtain ⟨rfl, rfl⟩ := Prod.mk.inj (Except.ok.inj (hu.symm.trans h₅))
    refine ⟨u, ?_, ?_, .inr ⟨b, rfl, h⟩⟩
    · rw [hframe]
      exact s.afterBank_snapInv r i
    · rw [hframe]
      exact s.afterBank_view r i

/-- One bank sequence (R197): it adds exactly the codes of the bytes of its banks. -/
theorem saferBanks_ok {read : Instr} {r : Region} (hread : ReadsBankAt read r) (n : Nat) {s t : State} {p : Patch}
    (hs : s.SaferReady p) {i : Nat} (hi : i + n ≤ s.bankCount r) {acc codes : List Code}
    (h : saferBanks read n i acc s = .ok (codes, t)) :
    t.SnapInv ∧ t.bankView = s.bankView ∧
      (∀ x, x ∈ codes ↔ x ∈ acc ∨ ∃ b, x = codeOfPatch ⟨p.address, p.value, some b⟩ ∧ s.BankByte r i n b) ∧
      (acc.Nodup → codes.Nodup) ∧ codes.length ≤ acc.length + n := by
  induction n generalizing s i acc with
  | zero =>
    cases h
    refine ⟨hs.snapInv, rfl, fun x => ⟨.inl, fun hx => ?_⟩, id, Nat.le_refl _⟩
    rcases hx with hx | ⟨b, -, j, hij, hji, -⟩
    · exact hx
    · omega
  | succ n ih =>
    obtain ⟨u, husnap, huview, hend | ⟨c, hc, hrest⟩⟩ := saferBanks_succ_ok hread hs (by omega) h
    · obtain ⟨hnone, rfl, rfl⟩ := hend
      refine ⟨husnap, huview, fun x => ⟨.inl, fun hx => ?_⟩, id, by omega⟩
      rcases hx with hx | ⟨b, -, hb⟩
      · exact hx
      · exact absurd hb (State.not_bankByte_of_end hnone _ b)
    · obtain ⟨hsnap, hview, hmem, hnodup, hlen⟩ :=
        ih (hs.congr husnap huview) (by rw [State.bankCount_congr huview]; omega) hrest
      refine ⟨hsnap, hview.trans huview, fun x => ?_, fun hacc => hnodup (nodup_addCode hacc), ?_⟩
      · simp only [hmem, mem_addCode, State.bankByte_congr huview, State.bankByte_succ hc]
        constructor
        · rintro ((rfl | hx) | ⟨b, rfl, hb⟩)
          · exact .inr ⟨c, rfl, .inl rfl⟩
          · exact .inl hx
          · exact .inr ⟨b, rfl, .inr hb⟩
        · rintro (hx | ⟨b, rfl, rfl | hb⟩)
          · exact .inl (.inr hx)
          · exact .inl (.inl rfl)
          · exact .inr ⟨b, rfl, hb⟩
      · have hadd := length_addCode_le (codeOfPatch ⟨p.address, p.value, some c⟩) acc
        omega

/-! ### The two bank sequences -/

/-- A code that DEC accepts after SETCODE is decoded by DECODE to the patch whose fields DEC stored. -/
theorem decodeCode_of_dec_ok {s t : State} {code : Code} (h : exec .dec (s.withCode code) = .next t)
    (herr : t.err = 0) :
    ∃ p u, decodeCode code s = .ok (p, u) ∧ 0x8000 ≤ p.address.toNat ∧
      t = ((s.withCode code).storePatch p).succeed := by
  obtain ⟨ns, -, -, -, rfl⟩ := exec_dec_ok h herr
  exact ⟨_, _, decodeCode_of_ok h herr rfl rfl rfl (fun c hc => by simp [hc]), decodeNibbles_address_legal ns, rfl⟩

/-- HDR in a sequence that goes on leaves a parsed header, and what it does not parse (R141). -/
theorem runCmd_hdr_ok {s t : State} (h : runCmd .hdr s = .ok ((), t)) :
    t.hv = true ∧ t.snap = s.snap ∧ t.img = s.img ∧ t.params = s.params ∧ t.a = s.a ∧ t.v = s.v := by
  obtain ⟨u, hu, herr, rfl⟩ := runCmd_ok rfl h
  cases hp : s.ensureHeader with
  | error e =>
    cases (congrArg Host.Outcome.next (State.withHeader_of_error hp _)).symm.trans hu
    exact absurd herr (errClass_ne_zero e)
  | ok v =>
    cases (exec_hdr_of_ok hp).symm.trans hu
    rcases State.ensureHeader_ok hp with ⟨hv, rfl⟩ | ⟨-, -, b4, b5, b6, -, -, -, rfl⟩
    · exact ⟨hv, rfl, rfl, rfl, rfl, rfl⟩
    · exact ⟨rfl, rfl, rfl, rfl, rfl, rfl⟩

/-- A SAFER that answers has decoded its code, parsed the header and run both bank sequences. -/
theorem safer_ok {s t : State} {code : Code} {codes : List Code} (hsnap : s.SnapInv)
    (h : safer code s = .ok (codes, t)) :
    ∃ p u v acc w, decodeCode code s = .ok (p, u) ∧ v.SaferReady p ∧ v.img = s.img ∧ v.params = s.params ∧
      saferBanks .rdpa v.prgn.toNat 0 [] v = .ok (acc, w) ∧ saferBanks .rdca v.chrn.toNat 0 acc w = .ok (codes, t) := by
  obtain ⟨⟨⟩, s₁, h₁, h⟩ := ok_of_bind_ok h
  cases (setCode_eq code s).symm.trans h₁
  obtain ⟨⟨⟩, s₂, h₂, h⟩ := ok_of_bind_ok h
  obtain ⟨d, hd, herr, rfl⟩ := runCmd_ok rfl h₂
  obtain ⟨p, u, hdecode, hlegal, rfl⟩ := decodeCode_of_dec_ok hd herr
  obtain ⟨⟨⟩, s₃, h₃, h⟩ := ok_of_bind_ok h
  obtain ⟨hv, hsnap₃, himg, hparams, ha, hval⟩ := runCmd_hdr_ok h₃
  obtain ⟨n, s₄, h₄, h⟩ := ok_of_bind_ok h
  cases (rdReg_eq .prgn _).symm.trans h₄
  obtain ⟨m, s₅, h₅, h⟩ := ok_of_bind_ok h
  cases (rdReg_eq .chrn _).symm.trans h₅
  obtain ⟨acc, w, hprg, hchr⟩ := ok_of_bind_ok h
  have hn : (s₃.readReg .prgn).toNat = s₃.prgn.toNat := BitVec.toNat_setWidth_of_le (by decide)
  have hm : ((s₃.answer (s₃.readReg .prgn)).readReg .chrn).toNat = s₃.chrn.toNat :=
    BitVec.toNat_setWidth_of_le (by decide)
  rw [hn] at hprg
  rw [hm] at hchr
  have hsnapv : s₃.SnapInv := by rw [State.SnapInv, hsnap₃, himg]; exact hsnap
  exact ⟨p, u, (s₃.answer (s₃.readReg .prgn)).answer ((s₃.answer (s₃.readReg .prgn)).readReg .chrn), acc, w, hdecode,
    ⟨hsnapv, hv, hlegal, ha, hval⟩, himg, hparams, hprg, hchr⟩

/-- The PRG bytes in the words of R197: the offsets are those of a state with the same header. -/
theorem State.SaferReady.bankByte_prg {v t : State} {p : Patch} (hv : v.SaferReady p) (hview : t.bankView = v.bankView)
    (b : Byte) : v.BankByte .prg 0 v.prgn.toNat b ↔ ∃ i, i < t.prgn.toNat ∧
      v.img.read (t.poff.toNat + 16384 * i + bankOff v.params.bankOff .prg p.address) = some b := by
  have ha : v.a.setWidth 16 = p.address := by rw [hv.a_eq]; exact BitVec.setWidth_setWidth_of_le _ (by decide)
  simp only [State.bankView, State.header, Prod.mk.injEq] at hview
  obtain ⟨-, -, ⟨-, hprgn, -, -, hpoff⟩, -, -⟩ := hview
  simp only [State.BankByte, State.saferOffset, State.bankOffset, State.regionStart, bankSize, ha, hprgn, hpoff,
    Nat.zero_le, true_and, Nat.zero_add]

/-- The CHR bytes in the words of R197; their region stands behind the nominal PRG region (R66). -/
theorem State.SaferReady.bankByte_chr {v t : State} {p : Patch} (hv : v.SaferReady p) (hview : t.bankView = v.bankView)
    (b : Byte) : v.BankByte .chr 0 v.chrn.toNat b ↔ ∃ i, i < t.chrn.toNat ∧
      v.img.read (t.poff.toNat + 16384 * t.prgn.toNat + 8192 * i + bankOff v.params.bankOff .chr p.address) =
        some b := by
  have ha : v.a.setWidth 16 = p.address := by rw [hv.a_eq]; exact BitVec.setWidth_setWidth_of_le _ (by decide)
  simp only [State.bankView, State.header, Prod.mk.injEq] at hview
  obtain ⟨-, -, ⟨-, hprgn, hchrn, -, hpoff⟩, -, -⟩ := hview
  simp only [State.BankByte, State.saferOffset, State.bankOffset, State.regionStart, bankSize, ha, hprgn, hchrn, hpoff,
    Nat.zero_le, true_and, Nat.zero_add]

/-- Settles O60: the PRG banks' bytes give the first codes, the CHR banks' the others, and both sequences see the same
image, header and patch. -/
theorem saferSequenceKeepsThePatch : Obligations.SaferSequenceKeepsThePatch := by
  intro s t code codes hsnap h
  obtain ⟨p, u, v, acc, w, hdecode, hv, himg, hparams, hprg, hchr⟩ := safer_ok hsnap h
  obtain ⟨hwsnap, hwview, hmemP, hnodupP, hlenP⟩ :=
    saferBanks_ok rdpa_readsBankAt _ hv (by rw [Nat.zero_add]; exact Nat.le_refl _) hprg
  have hchrn : w.chrn = v.chrn := congrArg (·.2.2.1.2.2.1) hwview
  obtain ⟨-, htview, hmemC, hnodupC, hlenC⟩ :=
    saferBanks_ok rdca_readsBankAt _ (hv.congr hwsnap hwview) (by rw [Nat.zero_add, ← hchrn]; exact Nat.le_refl _) hchr
  have hview := htview.trans hwview
  have hprgnt : t.prgn = v.prgn := congrArg (·.2.2.1.2.1) hview
  have hchrnt : t.chrn = v.chrn := congrArg (·.2.2.1.2.2.1) hview
  refine ⟨p, u, hdecode, fun x => ?_, hnodupC (hnodupP List.nodup_nil), ?_⟩
  · rw [hmemC, hmemP, ← himg, ← hparams]
    simp only [State.bankByte_congr hwview, hv.bankByte_prg hview, hv.bankByte_chr hview, List.not_mem_nil, false_or,
      and_or_left, exists_or]
  · simp only [List.length_nil] at hlenP
    rw [hprgnt, hchrnt]
    omega

end Sys2Proof.Machine
